-- ==== Sys2Proof/Word.lean ====
section
/-! DEFINITION. The words of the block: bytes, register numbers, bus addresses, command words, clock values. -/

namespace Sys2Proof

/-- A byte is 8 bits (00_scope.md R7). -/
abbrev Byte := BitVec 8

/-- A register number of the target: `REG_BITS = 7` bits (00_scope.md R6). -/
abbrev RegNum := BitVec 7

/-- A 7-bit bus address (20_memory.md R60). -/
abbrev BusAddr := BitVec 7

/-- A host command word: `CMD_BITS = 24` bits (30_encoding.md R90). -/
abbrev CmdWord := BitVec 24

/-- A value of the millisecond clock: `TIME_BITS = 32` bits (00_scope.md R6). -/
abbrev Time := BitVec 32

end Sys2Proof
end

