-- ==== Sys2Proof/Syntax.lean ====
section
/-! DEFINITION. The ten host commands of 30_encoding.md R92, one constructor per row of the opcode table. -/

namespace Sys2Proof

/-- A host command with its operands, assembled as 30_encoding.md R91 says. -/
inductive Instr where
  /-- READ, R120: `count` consecutive registers from `startRegister`. -/
  | read (startRegister : RegNum) (count : Byte)
  /-- WRITE, R121: one byte to one register. -/
  | write (register : RegNum) (value : Byte)
  /-- SETADDR, R122: choose the candidate bus address. -/
  | setaddr (select : BitVec 1)
  /-- INIT, R130. -/
  | init
  /-- ENABLE, R131. -/
  | enable
  /-- SLEEP, R132. -/
  | sleep
  /-- READ_INSTANT, R151. -/
  | readInstant
  /-- WAKEUP_CHECK, R191. -/
  | wakeupCheck
  /-- EVENT_FLAGS, R220. -/
  | eventFlags
  /-- EVENTS_CLEAR, R225. -/
  | eventsClear
deriving DecidableEq, Repr, Inhabited

end Sys2Proof
end

