-- ==== Sys2Proof/WellFormed.lean ====
section
/-! DEFINITION. Well-formed commands: what 30_encoding.md R91 asks of the operands beyond their widths. -/

namespace Sys2Proof

/-- The one condition that the operand widths do not already give: READ's count is 1 to 255 (R91, R93). -/
def Instr.wf : Instr → Bool
  | .read _ count => count != 0
  | .write _ _ => true
  | .setaddr _ => true
  | .init => true
  | .enable => true
  | .sleep => true
  | .readInstant => true
  | .wakeupCheck => true
  | .eventFlags => true
  | .eventsClear => true

end Sys2Proof
end

