-- ==== Sys2Proof/Decode.lean ====
section
/-! DEFINITION. Decoding a 24-bit command word, total and rejecting by name (30_encoding.md R90 to R93), and the encoder
(R92, R106). -/

namespace Sys2Proof

/-- Why a command word is illegal (30_encoding.md R93). -/
inductive DecodeError where
  /-- `op` is `0x0` or `0xB` to `0xF`. -/
  | unassignedOp
  /-- `rsv` is not zero. -/
  | reservedBits
  /-- An operand bit that must be 0 is 1. -/
  | operandBits
  /-- A READ with `b = 0`. -/
  | zeroCount
deriving DecidableEq, Repr

/-- Field `op`, bits 23 to 20 (R90). -/
def opField (w : CmdWord) : BitVec 4 := w.extractLsb' 20 4

/-- Field `rsv`, bits 19 to 16 (R90). -/
def rsvField (w : CmdWord) : BitVec 4 := w.extractLsb' 16 4

/-- Field `a`, bits 15 to 8 (R90). -/
def aField (w : CmdWord) : Byte := w.extractLsb' 8 8

/-- Field `b`, bits 7 to 0 (R90). -/
def bField (w : CmdWord) : Byte := w.extractLsb' 0 8

/-- A command without operands: `a` and `b` must be 0 (R91). -/
def bareCommand (i : Instr) (a b : Byte) : Except DecodeError Instr :=
  if a = 0 ∧ b = 0 then .ok i else .error .operandBits

/-- READ's operands (R91): `a[7]` must be 0, `b` must not be 0. -/
def decodeRead (a b : Byte) : Except DecodeError Instr :=
  if a.getLsbD 7 then .error .operandBits
  else if b = 0 then .error .zeroCount
  else .ok (.read (a.extractLsb' 0 7) b)

/-- WRITE's operands (R91): `a[7]` must be 0. -/
def decodeWrite (a b : Byte) : Except DecodeError Instr :=
  if a.getLsbD 7 then .error .operandBits else .ok (.write (a.extractLsb' 0 7) b)

/-- SETADDR's operands (R91): `a[7:1]` and `b` must be 0. -/
def decodeSetaddr (a b : Byte) : Except DecodeError Instr :=
  if a.extractLsb' 1 7 = 0 ∧ b = 0 then .ok (.setaddr (a.extractLsb' 0 1)) else .error .operandBits

/-- The decoder: every word is one of the ten commands or illegal (R92, R93, R107). -/
def decode (w : CmdWord) : Except DecodeError Instr :=
  if rsvField w ≠ 0 then .error .reservedBits
  else
    match (opField w).toNat with
    | 0x1 => decodeRead (aField w) (bField w)
    | 0x2 => decodeWrite (aField w) (bField w)
    | 0x3 => decodeSetaddr (aField w) (bField w)
    | 0x4 => bareCommand .init (aField w) (bField w)
    | 0x5 => bareCommand .enable (aField w) (bField w)
    | 0x6 => bareCommand .sleep (aField w) (bField w)
    | 0x7 => bareCommand .readInstant (aField w) (bField w)
    | 0x8 => bareCommand .wakeupCheck (aField w) (bField w)
    | 0x9 => bareCommand .eventFlags (aField w) (bField w)
    | 0xA => bareCommand .eventsClear (aField w) (bField w)
    | _ => .error .unassignedOp

/-- The instruction the decoder reads from a word, as the opcode table numbers its bits. A command is one word of 24 bits
(R90); the bits above `nbits` are 0. -/
def decodeTableWord (nbits w : Nat) : Option Instr :=
  if w % 2 ^ nbits < 2 ^ 24 then
    match decode (BitVec.ofNat 24 (w % 2 ^ nbits)) with
    | .ok i => some i
    | .error _ => none
  else none

/-- The operation code of each command (R92). -/
def opcodeOf : Instr → BitVec 4
  | .read _ _ => 0x1
  | .write _ _ => 0x2
  | .setaddr _ => 0x3
  | .init => 0x4
  | .enable => 0x5
  | .sleep => 0x6
  | .readInstant => 0x7
  | .wakeupCheck => 0x8
  | .eventFlags => 0x9
  | .eventsClear => 0xA

/-- The operand `a` of each command (R91). -/
def operandA : Instr → Byte
  | .read r _ => r.setWidth 8
  | .write r _ => r.setWidth 8
  | .setaddr s => s.setWidth 8
  | .init => 0
  | .enable => 0
  | .sleep => 0
  | .readInstant => 0
  | .wakeupCheck => 0
  | .eventFlags => 0
  | .eventsClear => 0

/-- The operand `b` of each command (R91). -/
def operandB : Instr → Byte
  | .read _ n => n
  | .write _ v => v
  | .setaddr _ => 0
  | .init => 0
  | .enable => 0
  | .sleep => 0
  | .readInstant => 0
  | .wakeupCheck => 0
  | .eventFlags => 0
  | .eventsClear => 0

/-- The encoder: `word = (op << 20) | (a << 8) | b` (R106). -/
def encode (i : Instr) : CmdWord :=
  ((opcodeOf i).setWidth 24 <<< 20) ||| ((operandA i).setWidth 24 <<< 8) ||| (operandB i).setWidth 24

end Sys2Proof
end

