-- ==== Sys2Proof/Config.lean ====
section
/-! DEFINITION. The OPEN parameters of 00_scope.md R5 as one record, the forms of the environment's answers (00_scope.md R9)
and the free values that stand for answers nobody has written out. -/

namespace Sys2Proof

/-- One of the three axes; the type of `CLICK_AXIS` (00_scope.md R5). -/
inductive Axis where
  | x | y | z
deriving DecidableEq, Repr, Inhabited

/-- Where each field of a motion source byte stands. `decode_motion` is OPEN but "each field is one bit of the byte"
(30_encoding.md R99), so a layout is seven bit positions. DEDUCED, log 14. -/
structure MotionLayout where
  xl : Fin 8
  xh : Fin 8
  yl : Fin 8
  yh : Fin 8
  zl : Fin 8
  zh : Fin 8
  active : Fin 8
deriving DecidableEq, Repr, Inhabited

/-- Where each field of the click source byte stands (30_encoding.md R100). DEDUCED, log 14. -/
structure ClickLayout where
  x : Fin 8
  y : Fin 8
  z : Fin 8
  sign : Fin 8
  single : Fin 8
  double : Fin 8
  active : Fin 8
deriving DecidableEq, Repr, Inhabited

/-- An ordered list of register writes (00_scope.md R5). -/
abbrev WriteList := List (RegNum × Byte)

/-- The OPEN parameters of 00_scope.md R5, in the order of its table. A model takes each as an argument and assumes nothing
of it beyond its type and the constraint of `Params.wf`. -/
structure Params where
  addrPrimary : BusAddr
  addrSecondary : BusAddr
  consecFlag : Byte
  regId : RegNum
  idValue : Byte
  regInt1Src : RegNum
  regInt2Src : RegNum
  regClickSrc : RegNum
  regFifoSrc : RegNum
  regOut : RegNum
  motionLayout : MotionLayout
  clickLayout : ClickLayout
  busTimeout : Nat
  sampleBits : Nat
  wX : Vector Int 32
  wY : Vector Int 32
  wZ : Vector Int 32
  ldaReject : Bool
  zUpThreshold : Int
  zDownThreshold : Int
  clickAxis : Axis
  wakeGestures : Bool
  selfTest : Bool
  activeSoft : WriteList
  activeHard : WriteList
  sleepList : WriteList
  cfgWaitDown : WriteList
  cfgWaitUp : WriteList
  cfgWakeAccept : WriteList
  clickReinit : WriteList
  fatalDiscovery : Nat
  fatalIdentity : Nat
  fatalConfig : Nat
  fatalSelftest : Nat
  componentId : Nat
deriving DecidableEq, Repr

/-- One answer of the bus at a wait point (00_scope.md R9): `wait` polls of latency, the target's acknowledge where a byte was
sent, the byte where one was received. -/
structure BusAnswer where
  wait : Nat
  ack : Bool
  byte : Byte
deriving DecidableEq, Repr, Inhabited

/-- What reaches the block's ports between two operations (00_scope.md R10, 10_state.md R41). -/
inductive Event where
  /-- The host offers a command word (`cmd_valid = 1`). -/
  | command (word : CmdWord)
  /-- A `Line(level)` step of the environment, `true` for asserted (43_wake_sequencer.md R180). -/
  | line (level : Bool)
  /-- A `Reset` step, with the level the environment holds on the line (70_reset_and_hazards.md R290, 10_state.md R35). -/
  | reset (level : Bool)
  /-- Nothing is offered (`cmd_valid = 0`). -/
  | quiet
deriving DecidableEq, Repr, Inhabited

/-- A stream of environment answers as plain data: those written out, and how many have been used. Answers beyond the ones
written out are free (log 2). -/
structure Feed (α : Type) where
  script : List α
  pos : Nat
deriving DecidableEq, Repr

/-- The free answer of the bus at a position (93_implementation_defined.md U1, U2). -/
opaque Config.freeBus : Nat → BusAnswer

/-- The free `Line` steps taken at a line sample (93_implementation_defined.md U3). -/
opaque Config.freeLine : Nat → List Bool

/-- The free answer of the clock (93_implementation_defined.md U4). -/
opaque Config.freeClock : Nat → Time

/-- The free event at the block's ports (00_scope.md R10, 60_exceptions.md R266). -/
opaque Config.freeEvent : Nat → Event

end Sys2Proof
end

