-- ==== Sys2Proof/Machine/Constants.lean ====
section
/-! DEFINITION. The constants the source fixes (00_scope.md R4, R6), the constraints on the OPEN parameters (R5) and the
illustrative parameter set `P0` (R13). -/

namespace Sys2Proof

/-- `BUF_MAX`, R4. -/
def bufMax : Nat := 32

/-- `BYTES_PER_SAMPLE`, R4. -/
def bytesPerSample : Nat := 6

/-- `FAST_WINDOW_MS`, R4. -/
def fastWindowMs : Time := 400

/-- `SLOW_WINDOW_MS`, R4. -/
def slowWindowMs : Time := 1800

/-- `DOWN_HOLD_MS`, R4. -/
def downHoldMs : Time := 200

/-- `SPIN_MAX`, R4. -/
def spinMax : Nat := 1000

/-- `T_Y9`, R4. -/
def tY9 : Int := 240

/-- `T_YLAST_REJECT`, R4. -/
def tYlastReject : Int := -5

/-- `T_ZSLOPE`, R4. -/
def tZslope : Int := 110

/-- `T_X5`, R4. -/
def tX5 : Int := 120

/-- `T_XY`, R4. -/
def tXY : Int := 140

/-- `T_YLAST_ACCEPT`, R4. -/
def tYlastAccept : Int := 4

/-- `T_OVER_A`, R4. -/
def tOverA : Int := 20

/-- `T_OVER_B`, R4. -/
def tOverB : Int := 40

/-- `FIFO_IDX_MASK`, R6. -/
def fifoIdxMask : Byte := 0x1F

/-- The constraints 00_scope.md R5 puts on the OPEN parameters: the flag is one bit outside the seven register-number bits,
`BUS_TIMEOUT` is positive, `SAMPLE_BITS` is 8 to 16. -/
abbrev Params.wf (p : Params) : Prop :=
  p.consecFlag &&& 0x7F = 0 ∧ p.consecFlag ≠ 0 ∧ 0 < p.busTimeout ∧ 8 ≤ p.sampleBits ∧ p.sampleBits ≤ 16

/-- The illustrative set `P0` (00_scope.md R13): one assignment of the OPEN parameters, not the hardware's values. No rule
and no statement depends on it (log 1). -/
def Params.p0 : Params where
  addrPrimary := 0x18
  addrSecondary := 0x19
  consecFlag := 0x80
  regId := 0x0F
  idValue := 0x33
  regInt1Src := 0x31
  regInt2Src := 0x35
  regClickSrc := 0x39
  regFifoSrc := 0x2F
  regOut := 0x28
  motionLayout := { xl := 0, xh := 1, yl := 2, yh := 3, zl := 4, zh := 5, active := 6 }
  clickLayout := { x := 0, y := 1, z := 2, sign := 3, single := 4, double := 5, active := 6 }
  busTimeout := 100
  sampleBits := 8
  wX := Vector.replicate 32 0
  wY := Vector.replicate 32 0
  wZ := Vector.replicate 32 1
  ldaReject := false
  zUpThreshold := 20
  zDownThreshold := -20
  clickAxis := .z
  wakeGestures := true
  selfTest := false
  activeSoft := [(0x23, 0x10), (0x20, 0x77), (0x38, 0x10), (0x3A, 0x30), (0x21, 0x04), (0x2E, 0x00)]
  activeHard := [(0x24, 0x08), (0x3E, 0x02), (0x3F, 0x05)]
  sleepList := [(0x20, 0x4F), (0x38, 0x20), (0x3A, 0x20)]
  cfgWaitDown := [(0x2E, 0x00), (0x2E, 0x80), (0x30, 0x15)]
  cfgWaitUp := [(0x2E, 0x00), (0x2E, 0x80), (0x30, 0x28)]
  cfgWakeAccept := [(0x22, 0x80), (0x2E, 0x00)]
  clickReinit := [(0x38, 0x20), (0x3A, 0x20)]
  fatalDiscovery := 1
  fatalIdentity := 2
  fatalConfig := 3
  fatalSelftest := 4
  componentId := 1

end Sys2Proof
end

