-- ==== Sys2Proof/Machine/State.lean ====
section
/-! DEFINITION. The state of the block as plain data (10_state.md), the reasons a step stops, and the state after reset. -/

namespace Sys2Proof.Machine

/-- The nine positions of the transport sequencer (R21). -/
inductive TPhase where
  | idle | start | addrW | sub | wdata | restart | addrR | rdata | stop
deriving DecidableEq, Repr, Inhabited

/-- Which context owns the block and the bus (R40). -/
inductive Ctx where
  | idle | foreground | interrupt
deriving DecidableEq, Repr, Inhabited

/-- The five wake-gesture states (R32). -/
inductive WakeState where
  | sleepStart | waitForDown | waitForUp | wakeByClick | wakeByTurnUp
deriving DecidableEq, Repr, Inhabited

/-- The 3-bit code of a wake state (R32, 30_encoding.md R103). -/
def WakeState.code : WakeState → BitVec 3
  | .sleepStart => 0
  | .waitForDown => 1
  | .waitForUp => 2
  | .wakeByClick => 3
  | .wakeByTurnUp => 4

/-- The 2-bit code of a context (R40). -/
def Ctx.code : Ctx → BitVec 2
  | .idle => 0
  | .foreground => 1
  | .interrupt => 2

/-- A Sample: three signed integers (R25). -/
structure Sample where
  x : Int
  y : Int
  z : Int
deriving DecidableEq, Repr, Inhabited

/-- The flags of a motion interrupt source (R27, R28). -/
structure MotionFlags where
  xl : Bool
  xh : Bool
  yl : Bool
  yh : Bool
  zl : Bool
  zh : Bool
  active : Bool
deriving DecidableEq, Repr, Inhabited

/-- The flags of the click detector (R29). -/
structure ClickFlags where
  x : Bool
  y : Bool
  z : Bool
  sign : Bool
  single : Bool
  double : Bool
  active : Bool
deriving DecidableEq, Repr, Inhabited

/-- The status of a response (30_encoding.md R94); code 3 is never produced. -/
inductive Status where
  | ok | errBus | errCmd
deriving DecidableEq, Repr, Inhabited

/-- The 2-bit code of a status (30_encoding.md R94). -/
def Status.code : Status → BitVec 2
  | .ok => 0
  | .errBus => 1
  | .errCmd => 2

/-- A response of the block to a command (30_encoding.md R94). -/
structure Response where
  status : Status
  value : Byte
  data : List Byte
deriving DecidableEq, Repr, Inhabited

/-- One event on the bus, as a model that observes the bus sees it (40_transport.md R128). -/
inductive BusEvent where
  /-- `S`, a START condition. -/
  | start
  /-- `Sr`, a repeated START. -/
  | restart
  /-- `P`, a STOP condition. -/
  | stop
  /-- `W(byte, ack)`: the master sent `byte`, the target answered ACK (`true`) or NACK. -/
  | sent (byte : Byte) (ack : Bool)
  /-- `R(byte, mack)`: the master received `byte` and answered ACK (`true`) or NACK. -/
  | received (byte : Byte) (mack : Bool)
deriving DecidableEq, Repr, Inhabited

/-- Every register of 10_state.md, the record of what left the block, and the model's own fields: the OPEN parameters and the
environment's answers (INVENTORY.md, State). -/
structure State where
  /-- The OPEN parameters (00_scope.md R5); no step writes them (log 1). -/
  cfg : Params
  /-- `bus_addr`, R20. -/
  busAddr : BusAddr
  /-- `tphase`, R21. -/
  tphase : TPhase
  /-- `tcount`, R22. -/
  tcount : Nat
  /-- `tidx`, R23. -/
  tidx : BitVec 8
  /-- `rbuf[0..254]`, R24. -/
  rbuf : Vector Byte 255
  /-- `rlen`, R24. -/
  rlen : BitVec 8
  /-- `buf[0..31]`, R25. -/
  buf : Vector Sample 32
  /-- `depth`, R26. -/
  depth : BitVec 6
  /-- `int1_flags`, R27. -/
  int1Flags : MotionFlags
  /-- `int2_flags`, R28. -/
  int2Flags : MotionFlags
  /-- `click_flags`, R29. -/
  clickFlags : ClickFlags
  /-- `click_seen`, R30. -/
  clickSeen : Bool
  /-- `down_latch`, R31. -/
  downLatch : Bool
  /-- `down_start_ms`, R31. -/
  downStartMs : Time
  /-- `wake_state`, R32. -/
  wakeState : WakeState
  /-- `irq_en`, R33. -/
  irqEn : Bool
  /-- `irq_pending`, R34. -/
  irqPending : Bool
  /-- `irq_line`, R35; `true` for asserted. -/
  irqLine : Bool
  /-- `spin_count`, R36. -/
  spinCount : BitVec 10
  /-- `fast_count`, R37. -/
  fastCount : BitVec 8
  /-- `slow_count`, R37. -/
  slowCount : BitVec 8
  /-- `last_click_ms`, R38. -/
  lastClickMs : Time
  /-- `halted`, R39. -/
  halted : Bool
  /-- `fatal_component`, R39. -/
  fatalComponent : Nat
  /-- `fatal_code`, R39. -/
  fatalCode : Nat
  /-- `ctx`, R40. -/
  ctx : Ctx
  /-- The responses given, oldest first (30_encoding.md R94; log 6). -/
  responses : List Response
  /-- The bus events, oldest first (40_transport.md R128; log 6). -/
  trace : List BusEvent
  /-- The bus's answers (log 2). -/
  busFeed : Feed BusAnswer
  /-- The `Line` steps the environment takes at each line sample (log 2). -/
  lineFeed : Feed (List Bool)
  /-- The clock's answers (log 2, log 15). -/
  clockFeed : Feed Time
  /-- The events at the block's ports (log 3). -/
  eventFeed : Feed Event
deriving DecidableEq, Repr

/-- Why the machine stops with a fault. -/
inductive Fault where
  /-- Raised by `step` when the block is halted and the next event is a command or nothing: "a model counts it as a fault"
  (60_exceptions.md R252, R267; U12). Safe: nothing but a `Line` or a `Reset` can happen there. -/
  | halted
  /-- Raised by `step` when a command is offered while `ctx` is not `C_IDLE` and no servicing is due: `cmd_ready = 0`
  (70_reset_and_hazards.md R293; U11, stuck). No run reaches it (10_state.md R44b). Safe. -/
  | portBusy
deriving DecidableEq, Repr

/-- Why the machine gives an instruction no meaning. -/
inductive Refusal where
  /-- Raised by `exec` for an instruction that has no meaning yet. Safe. -/
  | notModelled (mnemonic : String)
  /-- Raised by INIT when `SELF_TEST` is true: "a model refuses INIT (gives it no meaning) rather than guess"
  (41_device_config.md R135; U9). Safe. -/
  | selfTestBuiltIn
deriving DecidableEq, Repr

/-- All flags of a motion source false. -/
def MotionFlags.none : MotionFlags := ⟨false, false, false, false, false, false, false⟩

/-- All flags of the click detector false. -/
def ClickFlags.none : ClickFlags := ⟨false, false, false, false, false, false, false⟩

/-- Every register at its reset value (R42) for given parameters and a given level of the line, nothing written out for the
environment. The registers R42 leaves unspecified are zero, DESIGN CHOICE (log 4). -/
def State.resetWith (p : Params) (line : Bool) : State where
  cfg := p
  busAddr := p.addrPrimary
  tphase := .idle
  tcount := 0
  tidx := 0
  rbuf := Vector.replicate 255 0
  rlen := 0
  buf := Vector.replicate 32 ⟨0, 0, 0⟩
  depth := 0
  int1Flags := .none
  int2Flags := .none
  clickFlags := .none
  clickSeen := false
  downLatch := false
  downStartMs := 0
  wakeState := .sleepStart
  irqEn := false
  irqPending := false
  irqLine := line
  spinCount := 0
  fastCount := 0
  slowCount := 0
  lastClickMs := 0
  halted := false
  fatalComponent := 0
  fatalCode := 0
  ctx := .idle
  responses := []
  trace := []
  busFeed := ⟨[], 0⟩
  lineFeed := ⟨[], 0⟩
  clockFeed := ⟨[], 0⟩
  eventFeed := ⟨[], 0⟩

/-- The machine right after reset (R42, 70_reset_and_hazards.md R291), the line deasserted (R35), with the illustrative
parameters `P0` in `cfg`: DESIGN CHOICE (log 1). -/
def State.reset : State := State.resetWith Params.p0 false

end Sys2Proof.Machine
end

