-- ==== Sys2Proof/Machine/Flags.lean ====
section
/-! DEFINITION. Flag computations: the source bytes (30_encoding.md R99, R100), their field-by-field OR (43_wake_sequencer.md
R182), the conditions ADVANCE and EVENT_FLAGS test, and the event bit set (30_encoding.md R102). -/

namespace Sys2Proof.Machine

/-- `decode_motion` for a layout (R99). -/
def decodeMotion (l : MotionLayout) (b : Byte) : MotionFlags where
  xl := b.getLsbD l.xl
  xh := b.getLsbD l.xh
  yl := b.getLsbD l.yl
  yh := b.getLsbD l.yh
  zl := b.getLsbD l.zl
  zh := b.getLsbD l.zh
  active := b.getLsbD l.active

/-- `decode_click` for a layout (R100). -/
def decodeClick (l : ClickLayout) (b : Byte) : ClickFlags where
  x := b.getLsbD l.x
  y := b.getLsbD l.y
  z := b.getLsbD l.z
  sign := b.getLsbD l.sign
  single := b.getLsbD l.single
  double := b.getLsbD l.double
  active := b.getLsbD l.active

/-- Field-by-field OR of motion flags (R182). -/
def MotionFlags.or (f g : MotionFlags) : MotionFlags where
  xl := f.xl || g.xl
  xh := f.xh || g.xh
  yl := f.yl || g.yl
  yh := f.yh || g.yh
  zl := f.zl || g.zl
  zh := f.zh || g.zh
  active := f.active || g.active

/-- Field-by-field OR of click flags (R182). -/
def ClickFlags.or (f g : ClickFlags) : ClickFlags where
  x := f.x || g.x
  y := f.y || g.y
  z := f.z || g.z
  sign := f.sign || g.sign
  single := f.single || g.single
  double := f.double || g.double
  active := f.active || g.active

/-- `f.axis(a)` (44_click_debounce.md R224). -/
def ClickFlags.axis (f : ClickFlags) : Axis → Bool
  | .x => f.x
  | .y => f.y
  | .z => f.z

/-- A qualifying click (44_click_debounce.md R224). -/
def qualifying (clickAxis : Axis) (f : ClickFlags) : Bool := f.active && f.single && f.axis clickAxis

/-- A Z-high or Y-high source fired, on either motion interrupt (43_wake_sequencer.md R187). -/
def zyHigh (f g : MotionFlags) : Bool := f.zh || f.yh || g.zh || g.yh

/-- The event bit set as a response value, bits 7 to 4 zero (30_encoding.md R102, R94). -/
def eventBits (fastEnd slowEnd click down : Bool) : Byte :=
  0#4 ++ BitVec.ofBool down ++ BitVec.ofBool click ++ BitVec.ofBool slowEnd ++ BitVec.ofBool fastEnd

/-- A click counter after one more click: 8 bits, saturating at 255 (44_click_debounce.md R223, R226). -/
def saturatingSucc (n : BitVec 8) : BitVec 8 := if n = 255 then 255 else n + 1

/-- Elapsed milliseconds, modulo 2^32 (44_click_debounce.md R227). -/
def elapsed (now since : Time) : Time := now - since

end Sys2Proof.Machine
end

