-- ==== Sys2Proof/Machine/Operands.lean ====
section
/-! DEFINITION. Operand forms: the address and register bytes of a transaction (30_encoding.md R95, R96), sample assembly
(20_memory.md R63 to R65), the FIFO index (30_encoding.md R101) and the bytes of an axis value in a response (R94). -/

namespace Sys2Proof.Machine

/-- The address byte `{bus_addr[6:0], rw}`, `rw` true for a read part (R95). -/
def addressByte (addr : BusAddr) (rw : Bool) : Byte := addr ++ BitVec.ofBool rw

/-- The register byte of a WRITE: the register number, flag clear (R96). -/
def writeRegisterByte (r : RegNum) : Byte := r.setWidth 8

/-- The register byte of a READ: the flag is set when more than one register is read (R96). -/
def readRegisterByte (p : Params) (r : RegNum) (count : Nat) : Byte :=
  if 1 < count then r.setWidth 8 ||| p.consecFlag else r.setWidth 8

/-- `raw16 = {hi, lo}`: the byte at the lower register number is the less significant (R63). -/
def raw16 (lo hi : Byte) : BitVec 16 := hi ++ lo

/-- An axis value: the top `SAMPLE_BITS` bits of the raw value, read as two's complement (R64). -/
def axisValue (sampleBits : Nat) (lo hi : Byte) : Int :=
  ((raw16 lo hi).extractLsb' (16 - sampleBits) sampleBits).toInt

/-- Sample `i` of a block of bytes read from `REG_OUT`: bytes `6*i` to `6*i + 5` in the order x, y, z (R65). -/
def sampleAt (sampleBits : Nat) (bytes : List Byte) (i : Nat) : Sample where
  x := axisValue sampleBits (bytes.getD (6 * i) 0) (bytes.getD (6 * i + 1) 0)
  y := axisValue sampleBits (bytes.getD (6 * i + 2) 0) (bytes.getD (6 * i + 3) 0)
  z := axisValue sampleBits (bytes.getD (6 * i + 4) 0) (bytes.getD (6 * i + 5) 0)

/-- The logical depth a FIFO source byte reports: index plus one (R101). -/
def fifoDepth (b : Byte) : Nat := (b &&& fifoIdxMask).toNat + 1

/-- An axis value in a response: 16-bit two's complement, low byte first (R94, 42_capture_classifier.md R151). -/
def axisBytes (a : Int) : List Byte :=
  [(BitVec.ofInt 16 a).extractLsb' 0 8, (BitVec.ofInt 16 a).extractLsb' 8 8]

/-- The data of a READ_INSTANT response (R94). -/
def sampleBytes (v : Sample) : List Byte := axisBytes v.x ++ axisBytes v.y ++ axisBytes v.z

end Sys2Proof.Machine
end

