-- ==== Sys2Proof/Machine/Ops.lean ====
section
/-! DEFINITION. The shared operations: the environment's answers, the wait points and frames of the transport
(40_transport.md), responding, fatal termination and the entry to and return from servicing (60_exceptions.md), the edge
detector (43_wake_sequencer.md R180), write lists (41_device_config.md R133). -/

namespace Sys2Proof.Machine

/-! ## The environment's answers (00_scope.md R9; log 2) -/

/-- The answer `k` places ahead: the one written out, else the free one of that position. -/
def feedAt {α : Type} (free : Nat → α) (f : Feed α) (k : Nat) : α :=
  f.script.getD (f.pos + k) (free (f.pos + k))

/-- `n` answers used. -/
def feedSkip {α : Type} (f : Feed α) (n : Nat) : Feed α := { f with pos := f.pos + n }

/-- The bus's answer at the wait point `k` places ahead. -/
def State.busAt (s : State) (k : Nat) : BusAnswer := feedAt Config.freeBus s.busFeed k

/-- The `Line` steps at the line sample `k` places ahead. -/
def State.lineStepsAt (s : State) (k : Nat) : List Bool := feedAt Config.freeLine s.lineFeed k

/-- The clock's answer `k` polls ahead. -/
def State.clockAt (s : State) (k : Nat) : Time := feedAt Config.freeClock s.clockFeed k

/-- The next event at the block's ports. -/
def State.nextEvent (s : State) : Event := feedAt Config.freeEvent s.eventFeed 0

/-- The next event has been taken. -/
def State.takeEvent (s : State) : State := { s with eventFeed := feedSkip s.eventFeed 1 }

/-- `Now()`: the clock is sampled (00_scope.md R9). The state after it. -/
def State.sampleClock (s : State) : State := { s with clockFeed := feedSkip s.clockFeed 1 }

/-! ## Small updates -/

/-- `tphase <- p`. -/
def State.atPhase (p : TPhase) (s : State) : State := { s with tphase := p }

/-- A bus event happened. -/
def State.emit (e : BusEvent) (s : State) : State := { s with trace := s.trace ++ [e] }

/-- One bus answer used, with the timeout counter left at `n` (R124). -/
def State.waited (n : Nat) (s : State) : State := { s with busFeed := feedSkip s.busFeed 1, tcount := n }

/-- `rbuf[tidx] <- b; tidx <- tidx + 1` (R120). -/
def State.storeByte (b : Byte) (s : State) : State :=
  { s with rbuf := s.rbuf.setIfInBounds s.tidx.toNat b, tidx := s.tidx + 1 }

/-- A host command begins: `ctx` is `C_FOREGROUND` while it executes (10_state.md R40). -/
def State.enterForeground (s : State) : State := { s with ctx := .foreground }

/-- `respond(status, value, data)`: one response, and the host command ends (00_scope.md R8, 30_encoding.md R94). -/
def State.respond (status : Status) (value : Byte) (data : List Byte) (s : State) : State :=
  { s with responses := s.responses ++ [⟨status, value, data⟩], ctx := .idle }

/-! ## Taking an exception and returning (60_exceptions.md) -/

/-- `raise Fatal(code)`: the block halts, no response (60_exceptions.md R252). -/
def State.raiseFatal (code : Nat) (s : State) : State :=
  { s with halted := true, fatalComponent := s.cfg.componentId, fatalCode := code, tphase := .idle, ctx := .idle }

/-- Entry to servicing: nothing is saved, the three flag registers are cleared (60_exceptions.md R258). -/
def State.enterService (s : State) : State :=
  { s with ctx := .interrupt, int1Flags := .none, int2Flags := .none, clickFlags := .none }

/-- Return from servicing: `ctx <- C_IDLE`, nothing to restore (60_exceptions.md R259). -/
def State.leaveService (s : State) : State := { s with ctx := .idle }

/-! ## The line (43_wake_sequencer.md R180) -/

/-- A `Line(level)` step, in every state, halted or not: only a deasserted-to-asserted edge while `irq_en = 1` sets `irq_pending`
(R180, 10_state.md R33, R34). DEDUCED: in a halted block too, where 60_exceptions.md R252 read by itself keeps every register but
`irq_line`; the two cannot both hold of `irq_pending` there (log 27). -/
def lineStep (level : Bool) (s : State) : State :=
  { s with irqPending := s.irqPending || (level && !s.irqLine && s.irqEn), irqLine := level }

/-- The environment takes several `Line` steps, in order. -/
def lineSteps : List Bool → State → State
  | [], s => s
  | level :: rest, s => lineSteps rest (lineStep level s)

/-- `LineLevel()`: the environment takes any number of `Line` steps, then the answer is `irq_line` (00_scope.md R9,
10_state.md R35). The state after the sample; its `irqLine` is the answer. -/
def sampleLine (s : State) : State :=
  lineSteps (s.lineStepsAt 0) { s with lineFeed := feedSkip s.lineFeed 1 }

/-! ## Wait points (40_transport.md R124) -/

/-- One wait point: the answer, or `none` for TIMEOUT when the latency reaches `BUS_TIMEOUT`. `tcount` ends at the latency or
at `BUS_TIMEOUT` (R124). -/
def waitPoint (s : State) : Option BusAnswer × State :=
  if (s.busAt 0).wait < s.cfg.busTimeout then (some (s.busAt 0), s.waited (s.busAt 0).wait)
  else (none, s.waited s.cfg.busTimeout)

/-- One part of a transaction: whether it went well, and the state after it. -/
abbrev Tx := State → Bool × State

/-- A START or repeated START condition in its phase (R120, 30_encoding.md R97). -/
def condition (p : TPhase) (e : BusEvent) : Tx := fun s =>
  let r := waitPoint (s.atPhase p)
  match r.1 with
  | some _ => (true, r.2.emit e)
  | none => (false, r.2)

/-- A byte sent in its phase, which goes well when the target acknowledges it (R120, 30_encoding.md R97). -/
def send (p : TPhase) (b : Byte) : Tx := fun s =>
  let r := waitPoint (s.atPhase p)
  match r.1 with
  | some a => (a.ack, r.2.emit (.sent b a.ack))
  | none => (false, r.2)

/-- The data bytes of a READ still to come: the master acknowledges every byte but the last (R120, 30_encoding.md R97). -/
def receiveBytes : Nat → Tx
  | 0, s => (true, s)
  | k + 1, s =>
    let r := waitPoint s
    match r.1 with
    | some a => receiveBytes k ((r.2.emit (.received a.byte (k != 0))).storeByte a.byte)
    | none => (false, r.2)

/-- Phase `T_RDATA`: `tidx <- 0`, then `count` bytes (R120). -/
def receiveAll (count : Nat) : Tx := fun s => receiveBytes count { s with tphase := .rdata, tidx := 0 }

/-- Parts in order, up to the first that fails. -/
def runParts : List Tx → Tx
  | [], s => (true, s)
  | f :: fs, s => if (f s).1 then runParts fs (f s).2 else (false, (f s).2)

/-- The one STOP of a transaction whose START has completed (R123, R124, R125; log 8). It is attempted whatever the parts before
it did, and its event is in the trace even when its wait point times out (log 9). -/
def stopBus : Tx := fun s =>
  let r := waitPoint (s.atPhase .stop)
  (r.1.isSome, r.2.emit .stop)

/-- What `fail` leaves in the transport once the STOP, if there is one, has been attempted (R125). -/
def State.abandon (s : State) : State := { s with tphase := .idle, tidx := 0 }

/-- A transaction: START, its parts under bus ownership, one STOP. It fails when one of them does (R123, R125); a START that
times out never owns the bus and needs no STOP. -/
def transaction (parts : List Tx) : Tx := fun s =>
  let r := condition .start .start s
  if r.1 then
    let q := runParts parts r.2
    let e := stopBus q.2
    if q.1 && e.1 then (true, e.2.atPhase .idle) else (false, e.2.abandon)
  else (false, r.2.abandon)

/-- The parts of a READ between START and STOP (R120, 30_encoding.md R97). -/
def readParts (p : Params) (addr : BusAddr) (r : RegNum) (count : Nat) : List Tx :=
  [send .addrW (addressByte addr false), send .sub (readRegisterByte p r count), condition .restart .restart,
    send .addrR (addressByte addr true), receiveAll count]

/-- The parts of a WRITE between START and STOP (R121, 30_encoding.md R98). -/
def writeParts (addr : BusAddr) (r : RegNum) (v : Byte) : List Tx :=
  [send .addrW (addressByte addr false), send .sub (writeRegisterByte r), send .wdata v]

/-- READ as the micro-operation `MemRead(r, count)` (R120): all bytes, or `none` for `Err` with `rlen = 0` (R125, R126). -/
def busRead (r : RegNum) (count : Nat) (s : State) : Option (List Byte) × State :=
  let q := transaction (readParts s.cfg s.busAddr r count) s
  if q.1 then (some (q.2.rbuf.toList.take count), { q.2 with rlen := BitVec.ofNat 8 count })
  else (none, { q.2 with rlen := 0 })

/-- WRITE as the micro-operation `MemWrite(r, 1, v)` (R121); `rbuf` and `rlen` are left alone. -/
def busWrite (r : RegNum) (v : Byte) : Tx := fun s => transaction (writeParts s.busAddr r v) s

/-! ## Write lists (41_device_config.md R133) -/

/-- `APPLY(list, SOFT)`: every pair is written, failures are ignored (R133). -/
def applySoft : WriteList → State → State
  | [], s => s
  | (r, v) :: rest, s => applySoft rest (busWrite r v s).2

/-- `APPLY(list, HARD)` up to its first failure; `false` when a write failed (R133). -/
def applyHard : WriteList → Tx
  | [], s => (true, s)
  | (r, v) :: rest, s => if (busWrite r v s).1 then applyHard rest (busWrite r v s).2 else (false, (busWrite r v s).2)

/-! ## The command port -/

/-- `cmd_ready = 1` exactly when the block is not halted, idle and no edge is pending (10_state.md R41). -/
def State.cmdReady (s : State) : Bool := !s.halted && decide (s.ctx = .idle) && !s.irqPending

/-- SERVICE is enabled when an edge is pending and the block is not halted (43_wake_sequencer.md R181). -/
def State.serviceDue (s : State) : Bool := s.irqPending && !s.halted

/-- An illegal command word is answered `ERR_CMD` and changes nothing else (30_encoding.md R93). -/
def answerIllegal (s : State) : State := s.enterForeground.respond .errCmd 0 []

/-- A `Reset` step: every register to its reset value, the line at the level the environment holds; the parameters, the
environment's answers and the record of what left the block stay (70_reset_and_hazards.md R290; log 5, log 6). -/
def resetStep (level : Bool) (s : State) : State :=
  { State.resetWith s.cfg level with
    responses := s.responses
    trace := s.trace
    busFeed := s.busFeed
    lineFeed := s.lineFeed
    clockFeed := s.clockFeed
    eventFeed := s.eventFeed }

end Sys2Proof.Machine
end

