-- ==== Sys2Proof/Machine/Capture.lean ====
section
/-! DEFINITION. FIFO Capture and the instant read (42_capture_classifier.md R150, R151). -/

namespace Sys2Proof.Machine

/-- The first `n` entries of `buf` from a block of bytes; the others keep what they held (R150, 10_state.md R25). -/
def storeSamples (sampleBits : Nat) (bytes : List Byte) (n : Nat) (old : Vector Sample 32) : Vector Sample 32 :=
  Vector.ofFn fun i => if i.val < n then sampleAt sampleBits bytes i.val else old[i]

/-- CAPTURE's second half: `n` sample blocks in one transaction (R150). -/
def captureBlocks (n : Nat) (s : State) : State :=
  let q := busRead s.cfg.regOut (bytesPerSample * n) s
  match q.1 with
  | some bytes => { q.2 with buf := storeSamples s.cfg.sampleBits bytes n q.2.buf, depth := BitVec.ofNat 6 n }
  | none => { q.2 with depth := 0 }

/-- CAPTURE (R150): a failure of either read leaves `depth = 0`. -/
def capture (s : State) : State :=
  let q := busRead s.cfg.regFifoSrc 1 s
  match q.1 with
  | some bytes => captureBlocks (fifoDepth (bytes.getD 0 0)) q.2
  | none => { q.2 with depth := 0 }

/-- INSTANT (R151): one three-axis reading, or `none` for `Err`. -/
def instant (s : State) : Option Sample × State :=
  let q := busRead s.cfg.regOut bytesPerSample s
  (q.1.map fun bytes => sampleAt s.cfg.sampleBits bytes 0, q.2)

/-- READ_INSTANT (R151). -/
def execReadInstant (s : State) : Host.Outcome State Fault Refusal :=
  .next <|
    let q := instant s.enterForeground
    match q.1 with
    | some v => q.2.respond .ok 1 (sampleBytes v)
    | none => q.2.respond .errBus 0 []

end Sys2Proof.Machine
end

