-- ==== Sys2Proof/Machine/Debounce.lean ====
section
/-! DEFINITION. Click Debounce and Event Aggregator: EVENT_FLAGS and EVENTS_CLEAR (44_click_debounce.md). -/

namespace Sys2Proof.Machine

/-- A counter's window has ended: it is not zero and more than the window has passed since the last qualifying click (R221). -/
def windowEnded (count : BitVec 8) (window now last : Time) : Bool := count != 0 && decide (window < elapsed now last)

/-- Part 1 of a poll (R221): each counter whose window has ended is reset. -/
def expireWindows (now : Time) (s : State) : State :=
  { s with
    fastCount := if windowEnded s.fastCount fastWindowMs now s.lastClickMs then 0 else s.fastCount
    slowCount := if windowEnded s.slowCount slowWindowMs now s.lastClickMs then 0 else s.slowCount }

/-- Part 2 of a poll (R222): the held-down latch from an orientation reading; a failed reading changes nothing. -/
def updateDownLatch (now : Time) (v : Option Sample) (s : State) : State :=
  match v with
  | some v =>
    if v.z < s.cfg.zDownThreshold then
      if s.downLatch then s else { s with downLatch := true, downStartMs := now }
    else { s with downLatch := false }
  | none => s

/-- Part 2's event (R222), judged after the latch is updated: below the threshold, and for at least `DOWN_HOLD_MS`. -/
def sustainedDown (now : Time) (v : Option Sample) (s : State) : Bool :=
  match v with
  | some v => decide (v.z < s.cfg.zDownThreshold) && decide (downHoldMs ≤ elapsed now s.downStartMs)
  | none => false

/-- A click source byte that a poll has read (R223): the flags are overwritten, and a qualifying click counts. -/
def takeClick (now : Time) (f : ClickFlags) (s : State) : Bool × State :=
  if qualifying s.cfg.clickAxis f then
    (true, { s with
      clickSeen := true
      clickFlags := f
      fastCount := saturatingSucc s.fastCount
      slowCount := saturatingSucc s.slowCount
      lastClickMs := now })
  else (false, { s with clickSeen := true, clickFlags := f })

/-- Part 3 of a poll (R223): the click source is read only while the line is asserted, and acted on once per assertion. The
Boolean says whether a qualifying click was counted. -/
def pollClick (now : Time) (s : State) : Bool × State :=
  let t := sampleLine s
  if t.irqLine then
    if t.clickSeen then (false, t)
    else
      let q := busRead t.cfg.regClickSrc 1 t
      match q.1 with
      | some bytes => takeClick now (decodeClick t.cfg.clickLayout (bytes.getD 0 0)) q.2
      | none => (false, q.2)
  else (false, { t with clickSeen := false })

/-- EVENT_FLAGS (R220): the clock is sampled once, then the three parts in order. -/
def execEventFlags (s : State) : Host.Outcome State Fault Refusal :=
  .next <|
    let now := s.clockAt 0
    let a := s.enterForeground.sampleClock
    let q := instant (expireWindows now a)
    let b := updateDownLatch now q.1 q.2
    let c := pollClick now b
    c.2.respond .ok
      (eventBits (windowEnded a.fastCount fastWindowMs now a.lastClickMs)
        (windowEnded a.slowCount slowWindowMs now a.lastClickMs) c.1 (sustainedDown now q.1 b)) []

/-- EVENTS_CLEAR (R225): both counters to zero, no event. -/
def execEventsClear (s : State) : Host.Outcome State Fault Refusal :=
  .next ({ s.enterForeground with fastCount := 0, slowCount := 0 }.respond .ok 0 [])

end Sys2Proof.Machine
end

