-- ==== Sys2Proof/Machine/DeviceConfig.lean ====
section
/-! DEFINITION. Device Configuration: INIT, ENABLE, SLEEP (41_device_config.md). -/

namespace Sys2Proof.Machine

/-- INIT's check of an identity byte that was read (R130): a mismatch is fatal (60_exceptions.md R253). -/
def checkIdentity (v : Byte) (s : State) : State :=
  if v = s.cfg.idValue then s.respond .ok 0 [] else s.raiseFatal s.cfg.fatalIdentity

/-- One probe of INIT: the identity register is read at a candidate address (R130). -/
def probe (addr : BusAddr) (s : State) : Option (List Byte) × State := busRead s.cfg.regId 1 { s with busAddr := addr }

/-- INIT without the self-test (R130): primary, then secondary on failure of the read; fatal when both fail or on a mismatch. -/
def initBody (s : State) : State :=
  let p := probe s.cfg.addrPrimary s
  match p.1 with
  | some bytes => checkIdentity (bytes.getD 0 0) p.2
  | none =>
    let q := probe s.cfg.addrSecondary p.2
    match q.1 with
    | some bytes => checkIdentity (bytes.getD 0 0) q.2
    | none => q.2.raiseFatal s.cfg.fatalDiscovery

/-- INIT (R130). With the self-test built in it is refused (R135; log 11). -/
def execInit (s : State) : Host.Outcome State Fault Refusal :=
  if s.cfg.selfTest then .refused .selfTestBuiltIn else .next (initBody s.enterForeground)

/-- ENABLE (R131): servicing is disarmed, then the active profile is applied; a failure among its hard writes is fatal. -/
def execEnable (s : State) : Host.Outcome State Fault Refusal :=
  .next <|
    let soft := applySoft s.cfg.activeSoft { s.enterForeground with irqEn := false, irqPending := false }
    let hard := applyHard s.cfg.activeHard soft
    if hard.1 then hard.2.respond .ok 0 [] else hard.2.raiseFatal s.cfg.fatalConfig

/-- SLEEP's arming of the wake machine (R132): only when wake gestures are enabled (90_conflicts.md C4). -/
def armWake (s : State) : State :=
  if s.cfg.wakeGestures then { applySoft s.cfg.cfgWaitDown s with wakeState := .waitForDown }
  else { s with wakeState := .sleepStart }

/-- SLEEP (R132). -/
def execSleep (s : State) : Host.Outcome State Fault Refusal :=
  .next <|
    let t := applySoft s.cfg.sleepList { s.enterForeground with fastCount := 0, slowCount := 0, depth := 0 }
    { armWake t with irqEn := true }.respond .ok 0 []

end Sys2Proof.Machine
end

