-- ==== Sys2Proof/Machine/Transport.lean ====
section
/-! DEFINITION. The Register Transport's host commands: READ, WRITE, SETADDR (40_transport.md). -/

namespace Sys2Proof.Machine

/-- READ (R120): the bytes, or `ERR_BUS`; `count = 0` is answered `ERR_CMD` without touching the bus (R120, 30_encoding.md
R93). -/
def execRead (r : RegNum) (count : Byte) (s : State) : Host.Outcome State Fault Refusal :=
  .next <|
    if count = 0 then answerIllegal s
    else
      let q := busRead r count.toNat s.enterForeground
      match q.1 with
      | some bytes => q.2.respond .ok 0 bytes
      | none => q.2.respond .errBus 0 []

/-- WRITE (R121). -/
def execWrite (r : RegNum) (v : Byte) (s : State) : Host.Outcome State Fault Refusal :=
  .next <|
    let q := busWrite r v s.enterForeground
    q.2.respond (if q.1 then .ok else .errBus) 0 []

/-- The candidate address SETADDR selects (R122). -/
def candidateAddr (p : Params) (select : BitVec 1) : BusAddr := if select = 1 then p.addrSecondary else p.addrPrimary

/-- SETADDR (R122): `bus_addr` and nothing else. -/
def execSetaddr (select : BitVec 1) (s : State) : Host.Outcome State Fault Refusal :=
  .next ({ s.enterForeground with busAddr := candidateAddr s.cfg select }.respond .ok 0 [])

end Sys2Proof.Machine
end

