-- ==== Sys2Proof/Machine/Classifier.lean ====
section
/-! DEFINITION. The Gesture Classifier (42_capture_classifier.md R152 to R166): a pure function of the parameters, `depth` and
`buf`. -/

namespace Sys2Proof.Machine

/-- The classifier's verdict (R153). -/
inductive Verdict where
  | accept | reject
deriving DecidableEq, Repr, Inhabited

/-- The extended sample `s(i)`: the captured one below `depth`, zero from there on (R152). -/
def extSample (s : State) (i : Nat) : Sample := if i < s.depth.toNat then s.buf.toList.getD i ⟨0, 0, 0⟩ else ⟨0, 0, 0⟩

/-- `sum[i]`: the running total of samples `0..=i` (R152). -/
def cumSum (f : Nat → Int) : Nat → Int
  | 0 => f 0
  | i + 1 => cumSum f i + f (i + 1)

/-- `sum_x[i]` (R152). -/
def sumX (s : State) (i : Nat) : Int := cumSum (fun k => (extSample s k).x) i

/-- `sum_y[i]` (R152). -/
def sumY (s : State) (i : Nat) : Int := cumSum (fun k => (extSample s k).y) i

/-- `sum_z[i]` (R152). -/
def sumZ (s : State) (i : Nat) : Int := cumSum (fun k => (extSample s k).z) i

/-- `last = buf[depth-1]`, the most recent sample (R152). -/
def lastSample (s : State) : Sample := extSample s (s.depth.toNat - 1)

/-- What sample `i` adds to the score: each axis times its weight `i` (R155). -/
def weighted (s : State) (i : Nat) : Int :=
  s.cfg.wX.toList.getD i 0 * (extSample s i).x + s.cfg.wY.toList.getD i 0 * (extSample s i).y +
    s.cfg.wZ.toList.getD i 0 * (extSample s i).z

/-- The linear classifier's score over indices 0 to 31 (R153, R155). -/
def score (s : State) : Int := cumSum (weighted s) (bufMax - 1)

/-- Stage 2's condition (R156). -/
abbrev stageY9 (s : State) : Prop := tY9 ≤ |sumY s 9|

/-- Stage 3's condition (R157). -/
abbrev stageLastBelow (s : State) : Prop := (lastSample s).y < tYlastReject

/-- Stage 4's condition (R158). -/
abbrev stageSlope (s : State) : Prop := tZslope ≤ sumZ s 31 - sumZ s 20 - sumZ s 11

/-- Stage 5's condition (R159). -/
abbrev stageX5 (s : State) : Prop := tX5 ≤ |sumX s 5|

/-- Stage 6's condition (R160). -/
abbrev stageXY (s : State) : Prop := tXY < |sumY s 9| + |sumX s 5|

/-- Stage 7's condition (R161). -/
abbrev stageLastAbove (s : State) : Prop := tYlastAccept ≤ (lastSample s).y

/-- Stage 8's condition (R162). -/
abbrev stageOvershoot (s : State) : Prop := tOverA < sumY s 31 - sumY s 26 ∨ tOverB < sumY s 31 - sumY s 22

/-- CLASSIFY (R153): the verdict and the number of the stage that decided. -/
def classify (s : State) : Verdict × Nat :=
  if s.depth = 0 then (.accept, 0)
  else if score s ≤ 0 then (.accept, 1)
  else if s.cfg.ldaReject then (.reject, 1)
  else if stageY9 s then (.accept, 2)
  else if stageLastBelow s then (.reject, 3)
  else if stageSlope s then (.accept, 4)
  else if stageX5 s then (.accept, 5)
  else if stageXY s then (.accept, 6)
  else if stageLastAbove s then (.accept, 7)
  else if stageOvershoot s then (.accept, 8)
  else (.reject, 9)

end Sys2Proof.Machine
end

