-- ==== Sys2Proof/Machine/Wake.lean ====
section
/-! DEFINITION. The Wake-Gesture State Machine: SERVICE, STATUS_PASS, the bounded spin-wait, ADVANCE, and WAKEUP_CHECK
(43_wake_sequencer.md). -/

namespace Sys2Proof.Machine

/-- STATUS_PASS's read of `REG_INT1_SRC` (R182): OR-ed in, nothing when it fails. -/
def readInt1 (s : State) : State :=
  let q := busRead s.cfg.regInt1Src 1 s
  match q.1 with
  | some bytes => { q.2 with int1Flags := q.2.int1Flags.or (decodeMotion s.cfg.motionLayout (bytes.getD 0 0)) }
  | none => q.2

/-- STATUS_PASS's read of `REG_INT2_SRC` (R182). -/
def readInt2 (s : State) : State :=
  let q := busRead s.cfg.regInt2Src 1 s
  match q.1 with
  | some bytes => { q.2 with int2Flags := q.2.int2Flags.or (decodeMotion s.cfg.motionLayout (bytes.getD 0 0)) }
  | none => q.2

/-- STATUS_PASS's read of `REG_CLICK_SRC` (R182). -/
def readClick (s : State) : State :=
  let q := busRead s.cfg.regClickSrc 1 s
  match q.1 with
  | some bytes => { q.2 with clickFlags := q.2.clickFlags.or (decodeClick s.cfg.clickLayout (bytes.getD 0 0)) }
  | none => q.2

/-- STATUS_PASS (R182): the three source registers in this order. -/
def statusPass (s : State) : State := readClick (readInt2 (readInt1 s))

/-- One more counted re-read pass (R181, R183). -/
def rereadPass (s : State) : State := statusPass { s with spinCount := s.spinCount + 1 }

/-- The bounded spin-wait (R181, R183): while the line is asserted, re-read, at most `SPIN_MAX` times; when the bound is
reached, the recovery of R184. The first argument bounds the recursion; SERVICE starts it above the bound. -/
def spinWait : Nat → State → State
  | 0, s => s
  | k + 1, s =>
    let t := sampleLine s
    if t.irqLine then
      if t.spinCount.toNat = spinMax then applySoft t.cfg.clickReinit t else spinWait k (rereadPass t)
    else t

/-- `WaitForDown -> WaitForUp` (R186). -/
def advanceDown (s : State) : State := { applySoft s.cfg.cfgWaitUp s with wakeState := .waitForUp }

/-- `WaitForUp` with an expected axis fired (R187): capture, classify, then accept or re-arm. -/
def advanceUp (s : State) : State :=
  let t := capture s
  match (classify t).1 with
  | .accept => { applySoft t.cfg.cfgWakeAccept t with wakeState := .wakeByTurnUp }
  | .reject => { applySoft t.cfg.cfgWaitDown t with wakeState := .waitForDown }

/-- ADVANCE (R185 to R190). -/
def advance (s : State) : State :=
  if s.clickFlags.active then { s with wakeState := .wakeByClick }
  else
    match s.wakeState with
    | .waitForDown => advanceDown s
    | .waitForUp => if zyHigh s.int1Flags s.int2Flags then advanceUp s else { s with wakeState := .wakeByTurnUp }
    | .sleepStart => s
    | .wakeByClick => s
    | .wakeByTurnUp => s

/-- SERVICE (R181): the interrupt handler. -/
def service (s : State) : State :=
  let t := statusPass s.enterService
  (advance (spinWait (spinMax + 1) { t with irqPending := false, spinCount := 0 })).leaveService

/-- WAKEUP_CHECK's answer from an instant reading (R191): true when z is not below the threshold, false on failure. -/
def facingUp (p : Params) (v : Option Sample) : Bool :=
  match v with
  | some v => decide (p.zUpThreshold ≤ v.z)
  | none => false

/-- A Boolean as a response value (30_encoding.md R94). -/
def boolValue (b : Bool) : Byte := if b then 1 else 0

/-- WAKEUP_CHECK (R191). -/
def execWakeupCheck (s : State) : Host.Outcome State Fault Refusal :=
  .next <|
    match s.wakeState with
    | .wakeByTurnUp => s.enterForeground.respond .ok 1 []
    | .wakeByClick =>
      let q := instant s.enterForeground
      q.2.respond .ok (boolValue (facingUp s.cfg q.1)) []
    | .sleepStart => s.enterForeground.respond .ok 0 []
    | .waitForDown => s.enterForeground.respond .ok 0 []
    | .waitForUp => s.enterForeground.respond .ok 0 []

end Sys2Proof.Machine
end

