-- ==== Sys2Proof/Machine/Dispatch.lean ====
section
/-! DEFINITION. One arm per constructor of `Instr`, each a direct call of its meaning. -/

namespace Sys2Proof.Machine

def exec (i : Instr) (s : State) : Host.Outcome State Fault Refusal :=
  match i with
  | .read r n => Sys2Proof.Machine.execRead r n s
  | .write r v => Sys2Proof.Machine.execWrite r v s
  | .setaddr b => Sys2Proof.Machine.execSetaddr b s
  | .init => Sys2Proof.Machine.execInit s
  | .enable => Sys2Proof.Machine.execEnable s
  | .sleep => Sys2Proof.Machine.execSleep s
  | .readInstant => Sys2Proof.Machine.execReadInstant s
  | .wakeupCheck => Sys2Proof.Machine.execWakeupCheck s
  | .eventFlags => Sys2Proof.Machine.execEventFlags s
  | .eventsClear => Sys2Proof.Machine.execEventsClear s

end Sys2Proof.Machine
end

