-- ==== Sys2Proof/Machine/Fetch.lean ====
section
/-! DEFINITION. Taking a command word from the port: when a word is taken, held or never taken (70_reset_and_hazards.md R293),
and what an offered or absent word makes the block do. -/

namespace Sys2Proof.Machine

/-- A command word taken from the port: its command is run, or it is answered `ERR_CMD` (30_encoding.md R93). -/
def runWord (w : CmdWord) (s : State) : Host.Outcome State Fault Refusal :=
  match decode w with
  | .ok i => exec i s
  | .error _ => .next (answerIllegal s)

/-- A command word is offered: taken when `cmd_ready = 1`; held while SERVICE runs first (60_exceptions.md R257a,
70_reset_and_hazards.md R293); never taken once halted (R252). -/
def offerWord (w : CmdWord) (s : State) : Host.Outcome State Fault Refusal :=
  if s.cmdReady then runWord w s.takeEvent
  else if s.serviceDue then .next (service s)
  else if s.halted then .fault .halted
  else .fault .portBusy

/-- Nothing is offered: SERVICE runs if it is due, a halted block is a fault (60_exceptions.md R267), else nothing happens. -/
def idleTurn (s : State) : Host.Outcome State Fault Refusal :=
  if s.serviceDue then .next (service s.takeEvent)
  else if s.halted then .fault .halted
  else .next s.takeEvent

end Sys2Proof.Machine
end

