-- ==== Sys2Proof/Machine/Step.lean ====
section
/-! DEFINITION. One step of the whole machine (00_scope.md R10): a host command, a SERVICE, a `Line` or a `Reset`, as the next
event at the block's ports and the pending bit say. -/

namespace Sys2Proof.Machine

/-- One step (00_scope.md R10). `Line` and `Reset` are enabled in every state (43_wake_sequencer.md R180,
70_reset_and_hazards.md R290). -/
def step (s : State) : Host.Outcome State Fault Refusal :=
  match s.nextEvent with
  | .line level => .next (lineStep level s.takeEvent)
  | .reset level => .next (resetStep level s.takeEvent)
  | .command w => offerWord w s
  | .quiet => idleTurn s

/-- `s` with a command word offered at a ready port, so that the very next step takes exactly that word: it is the next event,
and `cmd_ready` is 1 (log 12). A word is 24 bits; the bits above `nbits` are 0. -/
def State.withFetchWord (s : State) (nbits w : Nat) : State :=
  { s with
    eventFeed := ⟨.command (BitVec.ofNat 24 (w % 2 ^ nbits)) :: s.eventFeed.script.drop s.eventFeed.pos, 0⟩
    halted := false
    irqPending := false
    ctx := .idle }

end Sys2Proof.Machine
end

