-- ==== Sys2Proof/Safety.lean ====
section
/-! DEFINITION. What claims speak of: the invariants that hold between operations (10_state.md R44), what the environment must
answer for a transaction to complete, the traces of 40_transport.md R128, and what no rule reads (10_state.md R42). -/

namespace Sys2Proof.Machine

/-! ## Invariants -/

/-- An axis value in the range of a `SAMPLE_BITS`-bit two's complement number (10_state.md R25). -/
abbrev axisInRange (sampleBits : Nat) (a : Int) : Prop := -(2 ^ (sampleBits - 1) : Int) ≤ a ∧ a < 2 ^ (sampleBits - 1)

/-- A Sample in range (10_state.md R25). -/
abbrev Sample.inRange (sampleBits : Nat) (v : Sample) : Prop :=
  axisInRange sampleBits v.x ∧ axisInRange sampleBits v.y ∧ axisInRange sampleBits v.z

/-- The invariants that hold between operations, of every state that a run reaches. -/
structure State.Inv (s : State) : Prop where
  /-- The parameters meet their constraints (00_scope.md R5). -/
  params : s.cfg.wf
  /-- "Capture Buffer depth never exceeds 32" (R44a). -/
  depth : s.depth.toNat ≤ bufMax
  /-- R44b. -/
  tphase : s.tphase = .idle
  /-- R44b. -/
  ctx : s.ctx = .idle
  /-- R44c. -/
  pending : s.irqPending = true → s.irqEn = true
  /-- R44d: while servicing is armed with wake gestures on, the machine has left `SleepStart`. -/
  armed : s.irqEn = true → s.cfg.wakeGestures = true → s.wakeState ≠ .sleepStart
  /-- With wake gestures off, only a click moves the machine (41_device_config.md R132, 43_wake_sequencer.md R192). -/
  unarmed : s.cfg.wakeGestures = false → s.wakeState = .sleepStart ∨ s.wakeState = .wakeByClick
  /-- R44e. -/
  busAddr : s.busAddr = s.cfg.addrPrimary ∨ s.busAddr = s.cfg.addrSecondary
  /-- R22. -/
  tcount : s.tcount ≤ s.cfg.busTimeout
  /-- R36. -/
  spinCount : s.spinCount.toNat ≤ spinMax
  /-- R25. -/
  samples : ∀ i : Fin 32, (s.buf[i]).inRange s.cfg.sampleBits
  /-- R253: a halted block carries `COMPONENT_ID` and the code of one of the causes. -/
  fatal : s.halted = true → s.fatalComponent = s.cfg.componentId ∧
    (s.fatalCode = s.cfg.fatalDiscovery ∨ s.fatalCode = s.cfg.fatalIdentity ∨ s.fatalCode = s.cfg.fatalConfig)

/-- A safe state: the invariants hold and the block is not halted ("a fault, never a good end", 60_exceptions.md R267). -/
structure State.Safe (s : State) : Prop where
  inv : s.Inv
  running : s.halted = false

/-! ## When a transaction completes -/

/-- The wait point `k` places ahead completes: its latency is below `BUS_TIMEOUT` (40_transport.md R124). -/
abbrev State.completesAt (s : State) (k : Nat) : Prop := (s.busAt k).wait < s.cfg.busTimeout

/-- A READ of `n` bytes whose first wait point is `k` places ahead completes: all of its `n + 6` wait points complete and the
three bytes it sends are acknowledged (40_transport.md R120, R124). -/
structure State.ReadAcked (s : State) (k n : Nat) : Prop where
  completes : ∀ j < n + 6, s.completesAt (k + j)
  addrW : (s.busAt (k + 1)).ack = true
  sub : (s.busAt (k + 2)).ack = true
  addrR : (s.busAt (k + 4)).ack = true

/-- A WRITE whose first wait point is `k` places ahead completes: all of its five wait points complete and the three bytes it
sends are acknowledged (40_transport.md R121, R124). -/
structure State.WriteAcked (s : State) (k : Nat) : Prop where
  completes : ∀ j < 5, s.completesAt (k + j)
  addrW : (s.busAt (k + 1)).ack = true
  sub : (s.busAt (k + 2)).ack = true
  value : (s.busAt (k + 3)).ack = true

/-- Every WRITE of a list completes, the first one `k` places ahead. -/
abbrev State.ListAcked (s : State) (k : Nat) (l : WriteList) : Prop := ∀ j < l.length, s.WriteAcked (k + 5 * j)

/-- The next transaction's wait point `k` is its first that does not go well: it times out, or it sends a byte and is answered
NACK, where `sends` lists the wait points that send a byte (40_transport.md R120, R121, R124). -/
structure State.FailsFirstAt (s : State) (sends : List Nat) (k : Nat) : Prop where
  before : ∀ j < k, s.completesAt j ∧ (j ∈ sends → (s.busAt j).ack = true)
  fails : ¬ (s.completesAt k ∧ (k ∈ sends → (s.busAt k).ack = true))

/-- How many polls the next `n` wait points take: each its latency, at most `BUS_TIMEOUT` (40_transport.md R124). -/
def State.polls (s : State) (n : Nat) : Nat := ((List.range n).map fun j => min (s.busAt j).wait s.cfg.busTimeout).sum

/-- The bytes the target answers in a READ of `n` bytes whose first wait point is `k` places ahead. -/
def State.answers (s : State) (k n : Nat) : List Byte := (List.range n).map fun j => (s.busAt (k + 5 + j)).byte

/-! ## Traces (40_transport.md R128) -/

/-- The data part of a READ's trace: every byte acknowledged by the master but the last. -/
def dataTrace : List Byte → List BusEvent
  | [] => []
  | b :: rest => .received b (!rest.isEmpty) :: dataTrace rest

/-- The trace of a successful READ of `bytes` from register `r`. -/
def readTrace (p : Params) (addr : BusAddr) (r : RegNum) (bytes : List Byte) : List BusEvent :=
  [.start, .sent (addressByte addr false) true, .sent (readRegisterByte p r bytes.length) true, .restart,
    .sent (addressByte addr true) true] ++ dataTrace bytes ++ [.stop]

/-- The trace of a successful WRITE. -/
def writeTrace (addr : BusAddr) (r : RegNum) (v : Byte) : List BusEvent :=
  [.start, .sent (addressByte addr false) true, .sent (writeRegisterByte r) true, .sent v true, .stop]

/-- The trace of a write list of which every write succeeds. -/
def listTrace (addr : BusAddr) (l : WriteList) : List BusEvent := l.flatMap fun w => writeTrace addr w.1 w.2

/-- What a transaction from `s` to `t` leaves on the bus when its wait point `k` is the first that does not go well, `full` being
its trace had all gone well and `last` the wait point of its STOP (40_transport.md R125, R128). A START that times out leaves
nothing and ends it. Otherwise what came before is kept, a byte that was answered NACK follows, and the STOP ends it; no wait
point comes after the STOP's. -/
structure CutShort (s t : State) (full : List BusEvent) (last k : Nat) : Prop where
  unowned : k = 0 → t.trace = s.trace ∧ t.busFeed = feedSkip s.busFeed 1
  used : k ≠ 0 → t.busFeed = feedSkip s.busFeed (min (k + 2) (last + 1))
  timeout : k ≠ 0 → ¬ s.completesAt k → t.trace = s.trace ++ full.take k ++ [.stop]
  nack : s.completesAt k → ∃ b, full[k]? = some (.sent b true) ∧ t.trace = s.trace ++ full.take k ++ [.sent b false, .stop]

/-- `rbuf` with its first entries replaced by the bytes of a READ (40_transport.md R120). -/
def overlay (old : Vector Byte 255) (bytes : List Byte) : Vector Byte 255 :=
  Vector.ofFn fun i => bytes.getD i.val old[i]

/-! ## The opcode table (30_encoding.md R92) -/

/-- The rows of R92: mask and match, in the table's order. -/
def opcodeRows : List (CmdWord × CmdWord) :=
  [(0xFF8000, 0x100000), (0xFF8000, 0x200000), (0xFFFEFF, 0x300000), (0xFFFFFF, 0x400000), (0xFFFFFF, 0x500000),
    (0xFFFFFF, 0x600000), (0xFFFFFF, 0x700000), (0xFFFFFF, 0x800000), (0xFFFFFF, 0x900000), (0xFFFFFF, 0xA00000)]

/-- The row of each command in `opcodeRows`. -/
def rowOf : Instr → Nat
  | .read _ _ => 0
  | .write _ _ => 1
  | .setaddr _ => 2
  | .init => 3
  | .enable => 4
  | .sleep => 5
  | .readInstant => 6
  | .wakeupCheck => 7
  | .eventFlags => 8
  | .eventsClear => 9

/-- A word selects a row: `word & mask = match` (R92). -/
abbrev selects (row : CmdWord × CmdWord) (w : CmdWord) : Prop := w &&& row.1 = row.2

/-! ## What no rule reads (10_state.md R42; 93_implementation_defined.md U8) -/

/-- `s` with every register content that R42 calls unspecified set to zero: `rbuf` from `rlen` on, `buf` from `depth` on, the
two timestamps while nothing refers to them, the fatal numbers while not halted. -/
def State.scrub (s : State) : State :=
  { s with
    rbuf := Vector.ofFn fun i => if i.val < s.rlen.toNat then s.rbuf[i] else 0
    buf := Vector.ofFn fun i => if i.val < s.depth.toNat then s.buf[i] else ⟨0, 0, 0⟩
    lastClickMs := if s.fastCount = 0 ∧ s.slowCount = 0 then 0 else s.lastClickMs
    downStartMs := if s.downLatch then s.downStartMs else 0
    fatalComponent := if s.halted then s.fatalComponent else 0
    fatalCode := if s.halted then s.fatalCode else 0 }

/-- An outcome with its next state scrubbed. -/
def scrubOutcome : Host.Outcome State Fault Refusal → Host.Outcome State Fault Refusal
  | .next t => .next t.scrub
  | .fault f => .fault f
  | .refused r => .refused r

end Sys2Proof.Machine
end

