-- ==== Sys2Proof/Certificates/Slice0/Obligations.lean ====
section
/-! DEFINITION. The statements for the provers. Each docstring names the rule of spec/ it comes from. -/

open Sys2Proof Sys2Proof.Machine

/-! ## Encoding (30_encoding.md) -/

/-- Decoding an encoded well-formed command gives it back, with every operand at every value (R91, R92, R106). -/
def Obligations.DecodeOfEncodeIsTheCommand : Prop :=
  ∀ i : Instr, i.wf = true → decode (encode i) = .ok i

/-- A word that decodes is the encoding of the command it decodes to, and that command is well formed (R92, R106). -/
def Obligations.EncodeOfDecodeIsTheWord : Prop :=
  ∀ (w : CmdWord) (i : Instr), decode w = .ok i → encode i = w ∧ i.wf = true

/-- R107 with the table of R92 and READ's extra condition: a word decodes exactly when it selects a row, to that row's command,
and no word selects two rows. -/
def Obligations.WordsDecodeByTheOpcodeTable : Prop :=
  (∀ w : CmdWord, (∃ i, decode w = .ok i) ↔
      ∃ row ∈ opcodeRows, selects row w ∧ (row.2 = 0x100000 → bField w ≠ 0)) ∧
    (∀ (w : CmdWord) (i : Instr), decode w = .ok i → ∃ row, opcodeRows[rowOf i]? = some row ∧ selects row w) ∧
    opcodeRows.Pairwise fun p q => ∀ w, ¬ (selects p w ∧ selects q w)

/-- R93: a word that matches no row of R92 (a READ row counts only with `b` not zero) is answered `(ERR_CMD, 0, [])` and
changes nothing else; the word is taken from the port. -/
def Obligations.IllegalWordIsAnsweredErrCmd : Prop :=
  ∀ (s : State) (w : CmdWord), s.cmdReady = true → s.nextEvent = .command w →
    (∀ row ∈ opcodeRows, ¬ (selects row w ∧ (row.2 = 0x100000 → bField w ≠ 0))) →
    step s = .next { s with
      responses := s.responses ++ [⟨.errCmd, 0, []⟩]
      eventFeed := feedSkip s.eventFeed 1 }

/-- The example words of R106 decode to the commands they stand for, and an illegal word of each kind of R93 does not decode. -/
def Obligations.ExampleWordsDecode : Prop :=
  decode 0x100F01 = .ok (.read 0x0F 1) ∧ decode 0x102806 = .ok (.read 0x28 6) ∧ decode 0x202077 = .ok (.write 0x20 0x77) ∧
    decode 0x300100 = .ok (.setaddr 1) ∧ decode 0x400000 = .ok .init ∧ decode 0x500000 = .ok .enable ∧
    decode 0x600000 = .ok .sleep ∧ decode 0x700000 = .ok .readInstant ∧ decode 0x800000 = .ok .wakeupCheck ∧
    decode 0x900000 = .ok .eventFlags ∧ decode 0xA00000 = .ok .eventsClear ∧
    decode 0x102800 = .error .zeroCount ∧ decode 0x208000 = .error .operandBits ∧ decode 0x410000 = .error .reservedBits ∧
    decode 0xB00000 = .error .unassignedOp

/-- The bytes of a frame: the address byte is the address above the direction bit (R95); the register byte carries the register
number in its low seven bits, with the flag set exactly when a READ is of more than one register (R96). -/
def Obligations.FrameBytesCarryAddressAndRegister : Prop :=
  (∀ (a : BusAddr) (rw : Bool), (addressByte a rw).extractLsb' 1 7 = a ∧ (addressByte a rw).getLsbD 0 = rw) ∧
    (∀ r : RegNum, (writeRegisterByte r).extractLsb' 0 7 = r ∧ (writeRegisterByte r).getLsbD 7 = false) ∧
    (∀ (p : Params) (r : RegNum) (n : Nat), p.wf →
      (readRegisterByte p r n).extractLsb' 0 7 = r ∧
        readRegisterByte p r n &&& p.consecFlag = if 1 < n then p.consecFlag else 0)

/-! ## The step (00_scope.md R10, 60_exceptions.md, 70_reset_and_hazards.md) -/

/-- When the port is ready and the offered word decodes, the step is that command, run after the word is taken (00_scope.md
R10, 70_reset_and_hazards.md R293). -/
def Obligations.StepRunsTheDecodedCommand : Prop :=
  ∀ (s : State) (w : CmdWord) (i : Instr), s.cmdReady = true → s.nextEvent = .command w → decode w = .ok i →
    step s = exec i s.takeEvent

/-- R181, R257a, R293: while an edge is pending an offered word is not taken; SERVICE runs first and the word is still offered.
SERVICE runs too when nothing is offered; with no edge pending either, nothing happens, which as a step of its own is the model's
form (log 3). -/
def Obligations.PendingEdgeIsServedBeforeACommand : Prop :=
  (∀ (s : State) (w : CmdWord), s.irqPending = true → s.halted = false → s.nextEvent = .command w →
    ∃ t, step s = .next t ∧ t = service s ∧ t.nextEvent = .command w ∧ t.responses = s.responses) ∧
  (∀ s : State, s.irqPending = true → s.halted = false → s.nextEvent = .quiet →
    step s = .next (service { s with eventFeed := feedSkip s.eventFeed 1 })) ∧
  (∀ s : State, s.irqPending = false → s.halted = false → s.nextEvent = .quiet →
    step s = .next { s with eventFeed := feedSkip s.eventFeed 1 })

/-- R252, R267: in the halted condition an offered word or an idle turn is a fault; only a `Line` step, which writes nothing but
the line and, on an edge, its pending bit, or a `Reset`, which ends the condition, can happen. Where the fault stands is log 7;
that the edge is recorded, where R252 read by itself keeps every register but the line, is the model's reading (log 27). -/
def Obligations.HaltedBlockTakesOnlyLineAndReset : Prop :=
  ∀ s : State, s.halted = true →
    ((∃ w, s.nextEvent = .command w) ∨ s.nextEvent = .quiet → step s = .fault .halted) ∧
    (∀ t, step s = .next t →
      (∃ l, s.nextEvent = .line l ∧ t = { s with
        irqPending := s.irqPending || (l && !s.irqLine && s.irqEn)
        irqLine := l
        eventFeed := feedSkip s.eventFeed 1 }) ∨
      (∃ l, s.nextEvent = .reset l ∧ t.halted = false))

/-- R33, R34, R180: a `Line` step happens in every state, halted or not, and the line takes the level; only a deasserted-to-asserted
edge while `irq_en = 1` sets `irq_pending`, and nothing in a `Line` step clears it. That the edge is recorded in a halted block,
against R252 read by itself, is the model's reading (log 27). -/
def Obligations.LineStepIsTheEdgeDetector : Prop :=
  ∀ (s : State) (level : Bool), s.nextEvent = .line level →
    step s = .next { s with
      irqPending := if level = true ∧ s.irqLine = false ∧ s.irqEn = true then true else s.irqPending
      irqLine := level
      eventFeed := feedSkip s.eventFeed 1 }

/-- R42, R290: a `Reset` step, in any state, gives every register its reset value (those R42 specifies), takes the line from
the environment, puts nothing on the bus and gives no response. -/
def Obligations.ResetStepGivesTheResetValues : Prop :=
  ∀ (s : State) (level : Bool), s.nextEvent = .reset level →
    ∃ t, step s = .next t ∧ t.busAddr = s.cfg.addrPrimary ∧ t.tphase = .idle ∧ t.tcount = 0 ∧ t.tidx = 0 ∧ t.rlen = 0 ∧
      t.depth = 0 ∧ t.int1Flags = .none ∧ t.int2Flags = .none ∧ t.clickFlags = .none ∧ t.clickSeen = false ∧
      t.downLatch = false ∧ t.wakeState = .sleepStart ∧ t.irqEn = false ∧ t.irqPending = false ∧ t.irqLine = level ∧
      t.spinCount = 0 ∧ t.fastCount = 0 ∧ t.slowCount = 0 ∧ t.halted = false ∧ t.ctx = .idle ∧
      t.cfg = s.cfg ∧ t.trace = s.trace ∧ t.responses = s.responses

/-- R42, R291: the registers R42 specifies, in the state after reset, for any parameters; the line deasserted (R35). -/
def Obligations.ResetStateHoldsTheResetValues : Prop :=
  ∀ p : Params, let s := State.resetWith p false
    s.busAddr = p.addrPrimary ∧ s.tphase = .idle ∧ s.tcount = 0 ∧ s.tidx = 0 ∧ s.rlen = 0 ∧ s.depth = 0 ∧
      s.int1Flags = .none ∧ s.int2Flags = .none ∧ s.clickFlags = .none ∧ s.clickSeen = false ∧ s.downLatch = false ∧
      s.wakeState = .sleepStart ∧ s.wakeState.code = 0 ∧ s.irqEn = false ∧ s.irqPending = false ∧ s.irqLine = false ∧
      s.spinCount = 0 ∧ s.fastCount = 0 ∧ s.slowCount = 0 ∧ s.halted = false ∧ s.ctx = .idle ∧ s.cmdReady = true ∧
      State.reset = State.resetWith State.reset.cfg false

/-! ## The transport (40_transport.md) -/

/-- R124: a wait point whose latency is below `BUS_TIMEOUT` yields the answer with `tcount` at the latency; otherwise it times
out with `tcount` at `BUS_TIMEOUT`. Nothing else changes and one answer is used. -/
def Obligations.WaitPointTimesOutAtTheBound : Prop :=
  ∀ s : State,
    ((s.busAt 0).wait < s.cfg.busTimeout →
      waitPoint s = (some (s.busAt 0), { s with tcount := (s.busAt 0).wait, busFeed := feedSkip s.busFeed 1 })) ∧
    (s.cfg.busTimeout ≤ (s.busAt 0).wait →
      waitPoint s = (none, { s with tcount := s.cfg.busTimeout, busFeed := feedSkip s.busFeed 1 }))

/-- R120, R128: a READ whose wait points all complete with every sent byte acknowledged delivers its bytes in the order
received, leaves them in `rbuf` and their number in `rlen`, has exactly the trace of R128, and changes nothing else. -/
def Obligations.ReadDeliversTheBytes : Prop :=
  ∀ (s : State) (r : RegNum) (n : Byte), n ≠ 0 → s.ReadAcked 0 n.toNat →
    exec (.read r n) s = .next { s with
      tphase := .idle
      tcount := (s.busAt (n.toNat + 5)).wait
      tidx := n
      rbuf := overlay s.rbuf (s.answers 0 n.toNat)
      rlen := n
      ctx := .idle
      trace := s.trace ++ readTrace s.cfg s.busAddr r (s.answers 0 n.toNat)
      busFeed := feedSkip s.busFeed (n.toNat + 6)
      responses := s.responses ++ [⟨.ok, 0, s.answers 0 n.toNat⟩] }

/-- R120, R125, R126: a READ with any wait point timed out or sent byte not acknowledged is answered `ERR_BUS` without data,
leaves `rlen = 0` and an idle transport, and changes nothing outside the transport; a READ of no bytes is answered `ERR_CMD`
without touching the bus (R93). -/
def Obligations.ReadThatFailsAnswersErrBus : Prop :=
  (∀ (s : State) (r : RegNum) (n : Byte), n ≠ 0 → ¬ s.ReadAcked 0 n.toNat →
    ∃ t, exec (.read r n) s = .next t ∧
      t = { s with
        tphase := .idle
        tcount := t.tcount
        tidx := 0
        rbuf := t.rbuf
        rlen := 0
        ctx := .idle
        trace := t.trace
        busFeed := t.busFeed
        responses := s.responses ++ [⟨.errBus, 0, []⟩] }) ∧
  (∀ (s : State) (r : RegNum),
    exec (.read r 0) s = .next { s with ctx := .idle, responses := s.responses ++ [⟨.errCmd, 0, []⟩] })

/-- R124, R125, R128: the trace of a failed READ or WRITE, by the first of its wait points that does not go well. Up to there it is
the trace of a successful one with the bytes the target answered, a byte answered NACK follows, and one STOP if START had
completed; how many answers were used says that nothing comes after that STOP. Every failed transaction has such a wait point.
That a timed-out event is not in the trace, and the STOP of a failure is, is the model's reading (log 9). So is that a STOP which
itself times out is the only one: R125 read by itself attempts a second, for which R124's count of wait points has no room
(log 8). -/
def Obligations.FailedReadTraceIsCutShort : Prop :=
  (∀ (s : State) (r : RegNum) (n : Byte) (k : Nat), n ≠ 0 → k < n.toNat + 6 → s.FailsFirstAt [1, 2, 4] k →
    ∃ t, exec (.read r n) s = .next t ∧
      CutShort s t (readTrace s.cfg s.busAddr r (s.answers 0 n.toNat)) (n.toNat + 5) k) ∧
  (∀ (s : State) (r : RegNum) (v : Byte) (k : Nat), k < 5 → s.FailsFirstAt [1, 2, 3] k →
    ∃ t, exec (.write r v) s = .next t ∧ CutShort s t (writeTrace s.busAddr r v) 4 k) ∧
  (∀ (s : State) (n : Nat), ¬ s.ReadAcked 0 n ↔ ∃ k < n + 6, s.FailsFirstAt [1, 2, 4] k) ∧
  (∀ s : State, ¬ s.WriteAcked 0 ↔ ∃ k < 5, s.FailsFirstAt [1, 2, 3] k)

/-- R124: a READ always ends, after at most `count + 6` wait points and so within `(count + 6) * BUS_TIMEOUT` polls, and a WRITE
after at most 5, within `5 * BUS_TIMEOUT` polls, with `tcount` within `BUS_TIMEOUT`. That these bounds hold also when the STOP
times out is the model's reading of R124 beside R125 (log 8). -/
def Obligations.TransactionsEndWithinTheirWaitPoints : Prop :=
  (∀ (s : State) (r : RegNum) (n : Byte), n ≠ 0 → ∃ (t : State) (m : Nat), exec (.read r n) s = .next t ∧
    t.busFeed = feedSkip s.busFeed m ∧ 1 ≤ m ∧ m ≤ n.toNat + 6 ∧ s.polls m ≤ (n.toNat + 6) * s.cfg.busTimeout ∧
    t.tcount ≤ s.cfg.busTimeout) ∧
  (∀ (s : State) (r : RegNum) (v : Byte), ∃ (t : State) (m : Nat), exec (.write r v) s = .next t ∧
    t.busFeed = feedSkip s.busFeed m ∧ 1 ≤ m ∧ m ≤ 5 ∧ s.polls m ≤ 5 * s.cfg.busTimeout ∧ t.tcount ≤ s.cfg.busTimeout)

/-- R121, R128: a WRITE whose wait points all complete with every sent byte acknowledged is answered OK, has exactly the trace
of R128, and changes nothing else; `rbuf` and `rlen` are not touched. -/
def Obligations.WriteSendsTheByte : Prop :=
  ∀ (s : State) (r : RegNum) (v : Byte), s.WriteAcked 0 →
    exec (.write r v) s = .next { s with
      tphase := .idle
      tcount := (s.busAt 4).wait
      ctx := .idle
      trace := s.trace ++ writeTrace s.busAddr r v
      busFeed := feedSkip s.busFeed 5
      responses := s.responses ++ [⟨.ok, 0, []⟩] }

/-- R121, R125: any other WRITE is answered `ERR_BUS`; it leaves an idle transport, `rbuf` and `rlen` as they were, and changes
nothing outside the transport. `tidx` is zero after it, as `fail` of R125 says; R121 does not list `tidx` (log 10). -/
def Obligations.WriteThatFailsAnswersErrBus : Prop :=
  ∀ (s : State) (r : RegNum) (v : Byte), ¬ s.WriteAcked 0 →
    ∃ t, exec (.write r v) s = .next t ∧
      t = { s with
        tphase := .idle
        tcount := t.tcount
        tidx := 0
        ctx := .idle
        trace := t.trace
        busFeed := t.busFeed
        responses := s.responses ++ [⟨.errBus, 0, []⟩] }

/-- R122: SETADDR writes `bus_addr` and nothing else, without bus traffic. -/
def Obligations.SetaddrWritesOnlyTheBusAddress : Prop :=
  ∀ s : State,
    exec (.setaddr 0) s = .next { s with
      busAddr := s.cfg.addrPrimary
      ctx := .idle
      responses := s.responses ++ [⟨.ok, 0, []⟩] } ∧
    exec (.setaddr 1) s = .next { s with
      busAddr := s.cfg.addrSecondary
      ctx := .idle
      responses := s.responses ++ [⟨.ok, 0, []⟩] }

/-! ## Device configuration (41_device_config.md) -/

/-- R130: INIT at a target that answers the identity at the primary address, and at one that answers it at the secondary
address after the primary probe has failed. The first is given whole; the second up to the transport's counters. -/
def Obligations.InitFindsTheTarget : Prop :=
  (∀ s : State, s.cfg.selfTest = false → s.ReadAcked 0 1 → (s.busAt 5).byte = s.cfg.idValue →
    exec .init s = .next { s with
      busAddr := s.cfg.addrPrimary
      tphase := .idle
      tcount := (s.busAt 6).wait
      tidx := 1
      rbuf := overlay s.rbuf [s.cfg.idValue]
      rlen := 1
      ctx := .idle
      trace := s.trace ++ readTrace s.cfg s.cfg.addrPrimary s.cfg.regId [s.cfg.idValue]
      busFeed := feedSkip s.busFeed 7
      responses := s.responses ++ [⟨.ok, 0, []⟩] }) ∧
  (∀ s : State, let u := (probe s.cfg.addrPrimary s.enterForeground).2
    s.cfg.selfTest = false → ¬ s.ReadAcked 0 1 → u.ReadAcked 0 1 → (u.busAt 5).byte = s.cfg.idValue →
    ∃ t, exec .init s = .next t ∧
      t = { s with
        busAddr := s.cfg.addrSecondary
        tphase := .idle
        tcount := t.tcount
        tidx := 1
        rbuf := t.rbuf
        rlen := 1
        ctx := .idle
        trace := u.trace ++ readTrace s.cfg s.cfg.addrSecondary s.cfg.regId [s.cfg.idValue]
        busFeed := t.busFeed
        responses := s.responses ++ [⟨.ok, 0, []⟩] } ∧ t.rbuf[0] = s.cfg.idValue)

/-- R130, R252, R253: INIT's fatal ends. A wrong identity at the primary address is fatal at once, the secondary not tried; a
wrong identity at the secondary; no answer at either. In each the block halts with `COMPONENT_ID` and the cause's code, gives
no response, and leaves `bus_addr` at the address last tried; nothing outside the transport changes besides. -/
def Obligations.InitFatalCauses : Prop :=
  ∀ s : State, s.cfg.selfTest = false → let u := (probe s.cfg.addrPrimary s.enterForeground).2
    ∀ (addr : BusAddr) (code : Nat),
      (addr = s.cfg.addrPrimary ∧ code = s.cfg.fatalIdentity ∧ s.ReadAcked 0 1 ∧ (s.busAt 5).byte ≠ s.cfg.idValue) ∨
      (addr = s.cfg.addrSecondary ∧ code = s.cfg.fatalIdentity ∧ ¬ s.ReadAcked 0 1 ∧ u.ReadAcked 0 1 ∧
        (u.busAt 5).byte ≠ s.cfg.idValue) ∨
      (addr = s.cfg.addrSecondary ∧ code = s.cfg.fatalDiscovery ∧ ¬ s.ReadAcked 0 1 ∧ ¬ u.ReadAcked 0 1) →
    ∃ t, exec .init s = .next t ∧
      t = { s with
        busAddr := addr
        tphase := .idle
        tcount := t.tcount
        tidx := t.tidx
        rbuf := t.rbuf
        rlen := t.rlen
        halted := true
        fatalComponent := s.cfg.componentId
        fatalCode := code
        ctx := .idle
        trace := t.trace
        busFeed := t.busFeed } ∧
      (s.ReadAcked 0 1 → t.busFeed = feedSkip s.busFeed 7)

/-- R135: with the self-test built in, INIT is refused, whatever the state; the refusal is the model's form (log 11). -/
def Obligations.InitWithSelfTestIsRefused : Prop :=
  ∀ s : State, s.cfg.selfTest = true → exec .init s = .refused .selfTestBuiltIn

/-- R131, R133: ENABLE with every write acknowledged disarms servicing, discards a pending edge, writes the soft and then the
hard list in order, and is answered OK. Nothing else outside the transport changes. -/
def Obligations.EnableAppliesTheActiveProfile : Prop :=
  ∀ s : State, s.ListAcked 0 (s.cfg.activeSoft ++ s.cfg.activeHard) →
    ∃ t, exec .enable s = .next t ∧
      t = { s with
        irqEn := false
        irqPending := false
        tphase := t.tphase
        tcount := t.tcount
        ctx := .idle
        trace := s.trace ++ listTrace s.busAddr (s.cfg.activeSoft ++ s.cfg.activeHard)
        busFeed := feedSkip s.busFeed (5 * (s.cfg.activeSoft.length + s.cfg.activeHard.length))
        responses := s.responses ++ [⟨.ok, 0, []⟩] }

/-- R124, R125, R131, R133, R252, R253: the first failing write of `ACTIVE_HARD` halts the block with `FATAL_CONFIG`, without a
response; the writes before it were made and none after it is attempted: no more than the five wait points of the failing one
follow theirs. That bound, with the STOP timing out, is the model's reading of R124 beside R125 (log 8); that `tidx` is zero
after a failed WRITE, as `fail` of R125 says though R121 does not list it, is too (log 10). -/
def Obligations.EnableHardWriteFailureIsFatal : Prop :=
  ∀ (s : State) (j : Nat), j < s.cfg.activeHard.length → s.ListAcked 0 (s.cfg.activeSoft ++ s.cfg.activeHard.take j) →
    ¬ s.WriteAcked (5 * (s.cfg.activeSoft.length + j)) →
    ∃ t, exec .enable s = .next t ∧
      t = { s with
        irqEn := false
        irqPending := false
        tphase := .idle
        tcount := t.tcount
        tidx := 0
        halted := true
        fatalComponent := s.cfg.componentId
        fatalCode := s.cfg.fatalConfig
        ctx := .idle
        trace := t.trace
        busFeed := t.busFeed } ∧
      s.trace ++ listTrace s.busAddr (s.cfg.activeSoft ++ s.cfg.activeHard.take j) <+: t.trace ∧
      t.busFeed.pos ≤ s.busFeed.pos + 5 * (s.cfg.activeSoft.length + j) + 5

/-- R125, R131, R133, R252, R253: whatever the soft writes do, ENABLE goes on to the hard list: with `u` the state the soft list
leaves, it is answered OK exactly when every hard write from there is acknowledged, and otherwise halts with `FATAL_CONFIG` and
no response. A failed soft write does not end the soft list: from wherever a first part of it, failed or not, has left the bus,
the rest is written. That `tidx` is zero after the halting write, as `fail` of R125 says though R121 does not list it, is the
model's reading (log 10). -/
def Obligations.EnableIgnoresSoftFailures : Prop :=
  ∀ s : State, let start := { s.enterForeground with irqEn := false, irqPending := false }
    let u := applySoft s.cfg.activeSoft start
    (u.ListAcked 0 s.cfg.activeHard → ∃ t, exec .enable s = .next t ∧
      t = { s with
        irqEn := false
        irqPending := false
        tphase := t.tphase
        tcount := t.tcount
        tidx := t.tidx
        ctx := .idle
        trace := u.trace ++ listTrace s.busAddr s.cfg.activeHard
        busFeed := feedSkip u.busFeed (5 * s.cfg.activeHard.length)
        responses := s.responses ++ [⟨.ok, 0, []⟩] }) ∧
    (¬ u.ListAcked 0 s.cfg.activeHard → ∃ t, exec .enable s = .next t ∧
      t = { s with
        irqEn := false
        irqPending := false
        tphase := .idle
        tcount := t.tcount
        tidx := 0
        halted := true
        fatalComponent := s.cfg.componentId
        fatalCode := s.cfg.fatalConfig
        ctx := .idle
        trace := t.trace
        busFeed := t.busFeed } ∧ u.trace <+: t.trace) ∧
    (∀ before rest : WriteList, s.cfg.activeSoft = before ++ rest → (applySoft before start).ListAcked 0 rest →
      u.trace = (applySoft before start).trace ++ listTrace s.busAddr rest)

/-- R132: whatever the bus does and in whatever state, SLEEP clears both counters and `depth`, arms servicing, moves the machine
to `WaitForDown` (to `SleepStart` with wake gestures off), and is answered OK; `last_click_ms`, `click_seen`, `down_latch`, the
flag registers and `irq_pending` are not touched. With every write acknowledged its lists are written in order; and a failed
write does not end them (R133): from wherever a first part of the lists, failed or not, has left the bus, the rest is written. -/
def Obligations.SleepArmsTheWakeMachine : Prop :=
  ∀ s : State, let l := s.cfg.sleepList ++ (if s.cfg.wakeGestures then s.cfg.cfgWaitDown else [])
    let start := { s.enterForeground with fastCount := 0, slowCount := 0, depth := 0 }
    ∃ t, exec .sleep s = .next t ∧
      t = { s with
        fastCount := 0
        slowCount := 0
        depth := 0
        wakeState := if s.cfg.wakeGestures then .waitForDown else .sleepStart
        irqEn := true
        tphase := t.tphase
        tcount := t.tcount
        tidx := t.tidx
        ctx := .idle
        trace := t.trace
        busFeed := t.busFeed
        responses := s.responses ++ [⟨.ok, 0, []⟩] } ∧
      (s.ListAcked 0 l → t.trace = s.trace ++ listTrace s.busAddr l) ∧
      (∀ before rest : WriteList, l = before ++ rest → (applySoft before start).ListAcked 0 rest →
        t.trace = (applySoft before start).trace ++ listTrace s.busAddr rest)

/-! ## Capture and instant read (20_memory.md R64, 42_capture_classifier.md R150, R151) -/

/-- R64: an axis value is the arithmetic right shift of the 16-bit raw value by `16 - SAMPLE_BITS`. -/
def Obligations.AxisValueIsTheShiftedRawValue : Prop :=
  ∀ (sampleBits : Nat) (lo hi : Byte), 8 ≤ sampleBits → sampleBits ≤ 16 →
    axisValue sampleBits lo hi = (hi ++ lo : BitVec 16).toInt / 2 ^ (16 - sampleBits)

/-- R150: a CAPTURE whose two reads are acknowledged takes `idx + 1` samples, oldest first, in the byte order of R63 to R65; the
entries beyond keep what they held, and nothing outside the buffer and the transport changes. -/
def Obligations.CaptureFillsTheBuffer : Prop :=
  ∀ s : State, let n := fifoDepth (s.busAt 5).byte
    s.ReadAcked 0 1 → s.ReadAcked 7 (6 * n) → ∃ t, t = capture s ∧ 1 ≤ n ∧ n ≤ 32 ∧
      t = { s with
        depth := BitVec.ofNat 6 n
        buf := t.buf
        tphase := .idle
        tcount := t.tcount
        tidx := t.tidx
        rbuf := t.rbuf
        rlen := BitVec.ofNat 8 (6 * n)
        trace := s.trace ++ readTrace s.cfg s.busAddr s.cfg.regFifoSrc (s.answers 0 1) ++
          readTrace s.cfg s.busAddr s.cfg.regOut (s.answers 7 (6 * n))
        busFeed := feedSkip s.busFeed (7 + (6 * n + 6)) } ∧ t.depth.toNat = n ∧
      (∀ i : Fin 32, i.val < n → t.buf[i] = sampleAt s.cfg.sampleBits (s.answers 7 (6 * n)) i.val) ∧
      (∀ i : Fin 32, n ≤ i.val → t.buf[i] = s.buf[i])

/-- R150: when either read of a CAPTURE fails, `depth` is 0, `buf` is unchanged, and nothing outside the transport changes. -/
def Obligations.CaptureFailureEmptiesTheBuffer : Prop :=
  ∀ s : State, ¬ (s.ReadAcked 0 1 ∧ s.ReadAcked 7 (6 * fifoDepth (s.busAt 5).byte)) →
    ∃ t, t = capture s ∧
      t = { s with
        depth := 0
        tphase := .idle
        tcount := t.tcount
        tidx := t.tidx
        rbuf := t.rbuf
        rlen := 0
        trace := t.trace
        busFeed := t.busFeed }

/-- R151: READ_INSTANT answers the three axis values, each as 16-bit two's complement, low byte first; when its read fails it
answers `ERR_BUS` without a value. `buf` and `depth` are not touched. -/
def Obligations.ReadInstantAnswersTheThreeAxes : Prop :=
  ∀ s : State, let v := sampleAt s.cfg.sampleBits (s.answers 0 6) 0
    ∃ t, exec .readInstant s = .next t ∧
      t = { s with
        tphase := .idle
        tcount := t.tcount
        tidx := t.tidx
        rbuf := t.rbuf
        rlen := t.rlen
        ctx := .idle
        trace := t.trace
        busFeed := t.busFeed
        responses := t.responses } ∧
      (s.ReadAcked 0 6 → t.rlen = 6 ∧ t.trace = s.trace ++ readTrace s.cfg s.busAddr s.cfg.regOut (s.answers 0 6) ∧
        ∃ data, t.responses = s.responses ++ [⟨.ok, 1, data⟩] ∧
          data = [(BitVec.ofInt 16 v.x).extractLsb' 0 8, (BitVec.ofInt 16 v.x).extractLsb' 8 8,
            (BitVec.ofInt 16 v.y).extractLsb' 0 8, (BitVec.ofInt 16 v.y).extractLsb' 8 8,
            (BitVec.ofInt 16 v.z).extractLsb' 0 8, (BitVec.ofInt 16 v.z).extractLsb' 8 8]) ∧
      (¬ s.ReadAcked 0 6 → t.rlen = 0 ∧ t.responses = s.responses ++ [⟨.errBus, 0, []⟩])

/-! ## The classifier (42_capture_classifier.md) -/

/-- R154: an empty capture is accepted at stage 0, whatever `buf` holds. -/
def Obligations.EmptyCaptureIsAccepted : Prop :=
  ∀ s : State, s.depth = 0 → classify s = (.accept, 0)

/-- R164: the verdict and the deciding stage depend on `depth`, the captured samples and the parameters alone. -/
def Obligations.ClassifierReadsOnlyTheCapturedSamples : Prop :=
  ∀ s t : State, s.cfg = t.cfg → s.depth = t.depth → (∀ i : Fin 32, i.val < s.depth.toNat → s.buf[i] = t.buf[i]) →
    classify s = classify t

/-- R152: beyond the last captured sample the cumulative sums stay at its sum. -/
def Obligations.CumulativeSumsStopAtTheLastSample : Prop :=
  ∀ (s : State) (i : Nat), s.depth ≠ 0 → s.depth.toNat - 1 ≤ i →
    sumX s i = sumX s (s.depth.toNat - 1) ∧ sumY s i = sumY s (s.depth.toNat - 1) ∧ sumZ s i = sumZ s (s.depth.toNat - 1)

/-- R155: the score is the dot product of the captured samples with the three weight vectors. -/
def Obligations.ScoreIsTheDotProductOfTheCapture : Prop :=
  ∀ s : State, s.depth.toNat ≤ 32 → score s = ∑ i : Fin 32, if i.val < s.depth.toNat then
    s.cfg.wX[i] * (s.buf[i]).x + s.cfg.wY[i] * (s.buf[i]).y + s.cfg.wZ[i] * (s.buf[i]).z else 0

/-- R153 to R163: the whole cascade with its thresholds. An empty capture aside, the verdict and the stage are those of the
first condition met: the score, the flag that rejects outright, and stages 2 to 8, with the reject of stage 9 when none is. So
the most recent y below -5 is rejected at stage 3, after stage 2 and before stages 4 to 8 are asked. -/
def Obligations.DeliberatenessGuardStandsBetweenStages : Prop :=
  ∀ s : State, s.depth ≠ 0 → let y := (s.buf.toList.getD (s.depth.toNat - 1) ⟨0, 0, 0⟩).y
    (score s ≤ 0 → classify s = (.accept, 1)) ∧
    (0 < score s → s.cfg.ldaReject = true → classify s = (.reject, 1)) ∧
    (0 < score s → s.cfg.ldaReject = false →
      (240 ≤ |sumY s 9| → classify s = (.accept, 2)) ∧
      (|sumY s 9| < 240 → y < -5 → classify s = (.reject, 3)) ∧
      (|sumY s 9| < 240 → -5 ≤ y →
        (110 ≤ sumZ s 31 - sumZ s 20 - sumZ s 11 → classify s = (.accept, 4)) ∧
        (sumZ s 31 - sumZ s 20 - sumZ s 11 < 110 →
          (120 ≤ |sumX s 5| → classify s = (.accept, 5)) ∧
          (|sumX s 5| < 120 →
            (140 < |sumY s 9| + |sumX s 5| → classify s = (.accept, 6)) ∧
            (|sumY s 9| + |sumX s 5| ≤ 140 →
              (4 ≤ y → classify s = (.accept, 7)) ∧
              (y < 4 →
                (20 < sumY s 31 - sumY s 26 ∨ 40 < sumY s 31 - sumY s 22 → classify s = (.accept, 8)) ∧
                (sumY s 31 - sumY s 26 ≤ 20 → sumY s 31 - sumY s 22 ≤ 40 → classify s = (.reject, 9))))))))

/-- R165: with captured samples in the range of at most 16 bits every cumulative sum fits 22 bits signed, the stage 4 expression
23 bits, and the stage 6 sum is at most 2^21. -/
def Obligations.ClassifierSumsFitTheirWidths : Prop :=
  ∀ s : State, 8 ≤ s.cfg.sampleBits → s.cfg.sampleBits ≤ 16 → (∀ i : Fin 32, (s.buf[i]).inRange s.cfg.sampleBits) →
    (∀ i < 32, |sumX s i| ≤ 2 ^ 20 ∧ |sumY s i| ≤ 2 ^ 20 ∧ |sumZ s i| ≤ 2 ^ 20) ∧
    |sumZ s 31 - sumZ s 20 - sumZ s 11| ≤ 3 * 2 ^ 20 ∧ |sumY s 9| + |sumX s 5| ≤ 2 ^ 21

/-! ## The wake sequencer (43_wake_sequencer.md) -/

/-- R182: a status pass reads the three source registers in order and ORs each byte that arrives into its register, whether or
not the other reads fail; a read that fails leaves its register as it was. With all three acknowledged, the bytes and the trace
in full. -/
def Obligations.StatusPassGathersFlags : Prop :=
  (∀ s : State, s.ReadAcked 0 1 → s.ReadAcked 7 1 → s.ReadAcked 14 1 →
    (statusPass s).int1Flags = s.int1Flags.or (decodeMotion s.cfg.motionLayout (s.busAt 5).byte) ∧
    (statusPass s).int2Flags = s.int2Flags.or (decodeMotion s.cfg.motionLayout (s.busAt 12).byte) ∧
    (statusPass s).clickFlags = s.clickFlags.or (decodeClick s.cfg.clickLayout (s.busAt 19).byte) ∧
    (statusPass s).trace = s.trace ++ readTrace s.cfg s.busAddr s.cfg.regInt1Src (s.answers 0 1) ++
      readTrace s.cfg s.busAddr s.cfg.regInt2Src (s.answers 7 1) ++
      readTrace s.cfg s.busAddr s.cfg.regClickSrc (s.answers 14 1)) ∧
  (∀ s : State, let a := readInt1 s
    let b := readInt2 a
    (s.ReadAcked 0 1 → (statusPass s).int1Flags = s.int1Flags.or (decodeMotion s.cfg.motionLayout (s.busAt 5).byte)) ∧
    (¬ s.ReadAcked 0 1 → (statusPass s).int1Flags = s.int1Flags) ∧
    (a.ReadAcked 0 1 → (statusPass s).int2Flags = s.int2Flags.or (decodeMotion s.cfg.motionLayout (a.busAt 5).byte)) ∧
    (¬ a.ReadAcked 0 1 → (statusPass s).int2Flags = s.int2Flags) ∧
    (b.ReadAcked 0 1 → (statusPass s).clickFlags = s.clickFlags.or (decodeClick s.cfg.clickLayout (b.busAt 5).byte)) ∧
    (¬ b.ReadAcked 0 1 → (statusPass s).clickFlags = s.clickFlags))

/-- R99, R100: OR-ing two source bytes and decoding equals decoding and OR-ing field by field. -/
def Obligations.DecodingFlagsRespectsOr : Prop :=
  (∀ (l : MotionLayout) (a b : Byte), decodeMotion l (a ||| b) = (decodeMotion l a).or (decodeMotion l b)) ∧
    (∀ (l : ClickLayout) (a b : Byte), decodeClick l (a ||| b) = (decodeClick l a).or (decodeClick l b))

/-- R183: a SERVICE samples the line once more often than it re-reads, at most 1001 times, and ends either with the line
deasserted or with `spin_count` at the bound of 1000. -/
def Obligations.SpinWaitIsBounded : Prop :=
  ∀ s : State, (service s).spinCount.toNat ≤ 1000 ∧
    (service s).lineFeed.pos = s.lineFeed.pos + (service s).spinCount.toNat + 1 ∧
    ((service s).irqLine = true → (service s).spinCount.toNat = 1000)

/-- R183, R184: a line that stays asserted at every sample brings the wait to its bound, with the line still asserted; a line
that deasserts at the first sample ends the wait at once. A sample that finds the line deasserted ends the wait, at the bound too,
and puts nothing on the bus; an asserted one is followed by a re-read pass and the wait goes on, and only at the bound by the
recovery list. With nothing to advance, a SERVICE whose line deasserts at once has only its status reads on the bus. -/
def Obligations.SpinWaitEndsByTheLineOrTheBound : Prop :=
  (∀ s : State, s.irqLine = true → (∀ j ≤ 1000, ∀ l ∈ s.lineStepsAt j, l = true) →
    (service s).spinCount.toNat = 1000 ∧ (service s).irqLine = true) ∧
  (∀ s : State, (s.lineStepsAt 0).getLastD s.irqLine = false → (service s).spinCount = 0 ∧ (service s).irqLine = false) ∧
  (∀ (s : State) (k : Nat), s.spinCount.toNat = 1000 → (s.lineStepsAt 0).getLastD s.irqLine = true →
    spinWait (k + 1) s = applySoft s.cfg.clickReinit (sampleLine s)) ∧
  (∀ (s : State) (k : Nat), (s.lineStepsAt 0).getLastD s.irqLine = false →
    spinWait (k + 1) s = sampleLine s ∧ (spinWait (k + 1) s).trace = s.trace) ∧
  (∀ (s : State) (k : Nat), s.spinCount.toNat ≠ 1000 → (s.lineStepsAt 0).getLastD s.irqLine = true →
    spinWait (k + 1) s = spinWait k (rereadPass (sampleLine s))) ∧
  (∀ s : State, (s.lineStepsAt 0).getLastD s.irqLine = false →
    s.wakeState = .sleepStart ∨ s.wakeState = .wakeByClick ∨ s.wakeState = .wakeByTurnUp →
    (service s).trace = (statusPass s.enterService).trace)

/-- R192 (R185 to R190): the wake state after a SERVICE, in terms of the flags it gathered and, after a capture, the verdict on
the captured samples; for every behaviour of the bus and the line. The flags are those gathered since its entry, which clears
the three registers (R181, R258): no flag from before has any effect, and with the line deasserted at the first sample they are
exactly the bytes read, or none when no read arrives. -/
def Obligations.ServiceFollowsTheTransitionTable : Prop :=
  (∀ s : State, let t := service s
    (t.clickFlags.active = true → t.wakeState = .wakeByClick) ∧
    (t.clickFlags.active = false →
      (s.wakeState = .waitForDown → t.wakeState = .waitForUp) ∧
      (s.wakeState = .waitForUp →
        (zyHigh t.int1Flags t.int2Flags = true → (classify t).1 = .accept → t.wakeState = .wakeByTurnUp) ∧
        (zyHigh t.int1Flags t.int2Flags = true → (classify t).1 = .reject → t.wakeState = .waitForDown) ∧
        (zyHigh t.int1Flags t.int2Flags = false → t.wakeState = .wakeByTurnUp)) ∧
      (s.wakeState = .sleepStart ∨ s.wakeState = .wakeByClick ∨ s.wakeState = .wakeByTurnUp → t.wakeState = s.wakeState))) ∧
  (∀ (s : State) (f g : MotionFlags) (h : ClickFlags),
    service { s with int1Flags := f, int2Flags := g, clickFlags := h } = service s) ∧
  (∀ s : State, (s.lineStepsAt 0).getLastD s.irqLine = false → let t := service s
    let e := { s with ctx := .interrupt, int1Flags := .none, int2Flags := .none, clickFlags := .none }
    (s.ReadAcked 0 1 → s.ReadAcked 7 1 → s.ReadAcked 14 1 →
      t.int1Flags = decodeMotion s.cfg.motionLayout (s.busAt 5).byte ∧
      t.int2Flags = decodeMotion s.cfg.motionLayout (s.busAt 12).byte ∧
      t.clickFlags = decodeClick s.cfg.clickLayout (s.busAt 19).byte) ∧
    (¬ e.ReadAcked 0 1 → ¬ (readInt1 e).ReadAcked 0 1 → ¬ (readInt2 (readInt1 e)).ReadAcked 0 1 →
      t.int1Flags = .none ∧ t.int2Flags = .none ∧ t.clickFlags = .none))

/-- R185 to R188, R190: what ADVANCE writes to the target. A click, the degenerate path and the three other states write nothing
and read nothing; `WaitForDown` writes `CFG_WAIT_UP`; after a capture, `CFG_WAKE_ACCEPT` on accept and `CFG_WAIT_DOWN` on
reject. -/
def Obligations.AdvanceWritesTheListOfItsRow : Prop :=
  (∀ s : State, s.clickFlags.active = true → advance s = { s with wakeState := .wakeByClick }) ∧
  (∀ s : State, s.clickFlags.active = false → s.wakeState = .waitForDown → s.ListAcked 0 s.cfg.cfgWaitUp →
    (advance s).trace = s.trace ++ listTrace s.busAddr s.cfg.cfgWaitUp ∧ (advance s).buf = s.buf) ∧
  (∀ s : State, s.clickFlags.active = false → s.wakeState = .waitForUp → zyHigh s.int1Flags s.int2Flags = false →
    advance s = { s with wakeState := .wakeByTurnUp }) ∧
  (∀ s : State, s.clickFlags.active = false → s.wakeState = .waitForUp → zyHigh s.int1Flags s.int2Flags = true →
    (classify (capture s)).1 = .accept → (capture s).ListAcked 0 s.cfg.cfgWakeAccept →
    (advance s).trace = (capture s).trace ++ listTrace s.busAddr s.cfg.cfgWakeAccept) ∧
  (∀ s : State, s.clickFlags.active = false → s.wakeState = .waitForUp → zyHigh s.int1Flags s.int2Flags = true →
    (classify (capture s)).1 = .reject → (capture s).ListAcked 0 s.cfg.cfgWaitDown →
    (advance s).trace = (capture s).trace ++ listTrace s.busAddr s.cfg.cfgWaitDown) ∧
  (∀ s : State, s.clickFlags.active = false →
    s.wakeState = .sleepStart ∨ s.wakeState = .wakeByClick ∨ s.wakeState = .wakeByTurnUp → advance s = s)

/-- R180, R181, R259: SERVICE clears the pending edge after its first status pass, and what is pending after it is exactly what
the edge detector saw during its wait: with servicing armed, a deasserted level followed by an asserted one anywhere among the
line's level at entry and the `Line` steps of every sample taken. -/
def Obligations.EdgeDuringServiceIsKept : Prop :=
  ∀ s : State, let samples := (service s).spinCount.toNat + 1
    let levels := s.irqLine :: (List.range samples).flatMap s.lineStepsAt
    (service s).irqPending = true ↔ s.irqEn = true ∧ [false, true] <:+: levels

/-- R181, R229, R259: SERVICE changes only the transport's registers, the flag registers, the Capture Buffer, `wake_state`,
`spin_count`, the line and its pending bit; no counter, timestamp or latch of the debounce filter, not `irq_en`, not the halted
condition, and it gives no response. -/
def Obligations.ServiceChangesOnlyItsOwnRegisters : Prop :=
  ∀ s : State, ∃ t, t = service s ∧
    t = { s with
      tphase := .idle
      tcount := t.tcount
      tidx := t.tidx
      rbuf := t.rbuf
      rlen := t.rlen
      buf := t.buf
      depth := t.depth
      int1Flags := t.int1Flags
      int2Flags := t.int2Flags
      clickFlags := t.clickFlags
      wakeState := t.wakeState
      irqPending := t.irqPending
      irqLine := t.irqLine
      spinCount := t.spinCount
      ctx := .idle
      trace := t.trace
      busFeed := t.busFeed
      lineFeed := t.lineFeed }

/-- R32, R192: `wake_state` changes only in a SERVICE, a SLEEP or a `Reset`. A SERVICE comes by itself, with an edge pending and a
word offered or none (log 3). -/
def Obligations.WakeStateChangesOnlyInItsOwnSteps : Prop :=
  ∀ s t : State, step s = .next t → t.wakeState ≠ s.wakeState →
    (∃ l, s.nextEvent = .reset l) ∨
      (s.irqPending = true ∧ s.halted = false ∧
        ((∃ w, s.nextEvent = .command w ∧ t = service s) ∨ (s.nextEvent = .quiet ∧ t = service s.takeEvent))) ∨
      (∃ w, s.nextEvent = .command w ∧ decode w = .ok .sleep)

/-- R191: WAKEUP_CHECK answers true at once in `WakeByTurnUp`, false at once in the three states that are no wake state, and in
`WakeByClick` whether an instant z is at least the threshold, false when the read fails. Only the last touches the bus, and
nothing outside the transport changes; `wake_state` never does. -/
def Obligations.WakeupCheckAnswersTheQuery : Prop :=
  (∀ s : State, s.wakeState = .wakeByTurnUp →
    exec .wakeupCheck s = .next { s with ctx := .idle, responses := s.responses ++ [⟨.ok, 1, []⟩] }) ∧
  (∀ s : State, s.wakeState = .sleepStart ∨ s.wakeState = .waitForDown ∨ s.wakeState = .waitForUp →
    exec .wakeupCheck s = .next { s with ctx := .idle, responses := s.responses ++ [⟨.ok, 0, []⟩] }) ∧
  (∀ s : State, s.wakeState = .wakeByClick → let v := sampleAt s.cfg.sampleBits (s.answers 0 6) 0
    ∃ (t : State) (b : Bool), exec .wakeupCheck s = .next t ∧
      (b = true ↔ s.ReadAcked 0 6 ∧ s.cfg.zUpThreshold ≤ v.z) ∧
      t = { s with
        tphase := .idle
        tcount := t.tcount
        tidx := t.tidx
        rbuf := t.rbuf
        rlen := t.rlen
        ctx := .idle
        trace := t.trace
        busFeed := t.busFeed
        responses := s.responses ++ [⟨.ok, if b then 1 else 0, []⟩] } ∧
      (s.ReadAcked 0 6 → t.trace = s.trace ++ readTrace s.cfg s.busAddr s.cfg.regOut (s.answers 0 6)))

/-! ## Click debounce (44_click_debounce.md) -/

/-- R220: a poll always ends, is answered OK with an event set of four bits and no data, and changes only the debounce
registers, `click_flags`, the transport's registers, the line and its pending bit. Its line sample passes through the edge
detector (R9, R35, R71, R180): the line is at the last level of the sample's `Line` steps, and an edge among them, while servicing
is armed, is kept pending. -/
def Obligations.PollAlwaysAnswersFourEventBits : Prop :=
  ∀ s : State, ∃ (t : State) (v : Byte), exec .eventFlags s = .next t ∧ v.toNat < 16 ∧
    t = { s with
      tphase := .idle
      tcount := t.tcount
      tidx := t.tidx
      rbuf := t.rbuf
      rlen := t.rlen
      clickFlags := t.clickFlags
      clickSeen := t.clickSeen
      downLatch := t.downLatch
      downStartMs := t.downStartMs
      irqPending := t.irqPending
      irqLine := (s.lineStepsAt 0).getLastD s.irqLine
      fastCount := t.fastCount
      slowCount := t.slowCount
      lastClickMs := t.lastClickMs
      ctx := .idle
      trace := t.trace
      busFeed := t.busFeed
      lineFeed := feedSkip s.lineFeed 1
      clockFeed := feedSkip s.clockFeed 1
      responses := s.responses ++ [⟨.ok, v, []⟩] } ∧
    (t.irqPending = true ↔ s.irqPending = true ∨ (s.irqEn = true ∧ [false, true] <:+: s.irqLine :: s.lineStepsAt 0))

/-- R221: a poll reports the end of a window exactly when that window's counter is not zero and more than 400 ms (1800 ms) have
passed, modulo 2^32, since the last qualifying click; unless the same poll counts a click, a reported counter is then zero, an
unreported one unchanged, and the timestamp unchanged. -/
def Obligations.WindowsEndAfterTheirTime : Prop :=
  ∀ s : State, let e := (s.clockAt 0 - s.lastClickMs).toNat
    ∃ (t : State) (v : Byte), exec .eventFlags s = .next t ∧ t.responses = s.responses ++ [⟨.ok, v, []⟩] ∧
      (v.getLsbD 0 = true ↔ s.fastCount ≠ 0 ∧ 400 < e) ∧ (v.getLsbD 1 = true ↔ s.slowCount ≠ 0 ∧ 1800 < e) ∧
      (v.getLsbD 2 = false →
        t.fastCount = (if v.getLsbD 0 then 0 else s.fastCount) ∧
        t.slowCount = (if v.getLsbD 1 then 0 else s.slowCount) ∧ t.lastClickMs = s.lastClickMs)

/-- The source's property of R221: a window end is reported once. A poll after one that reported it, with no click counted in
between, does not report it again. -/
def Obligations.WindowEndIsReportedOnce : Prop :=
  ∀ (s t : State) (v : Byte), exec .eventFlags s = .next t → t.responses = s.responses ++ [⟨.ok, v, []⟩] →
    v.getLsbD 2 = false → ∃ (u : State) (w : Byte), exec .eventFlags t = .next u ∧
      u.responses = t.responses ++ [⟨.ok, w, []⟩] ∧ (v.getLsbD 0 = true → w.getLsbD 0 = false) ∧
      (v.getLsbD 1 = true → w.getLsbD 1 = false)

/-- R222: the held-down latch and its event. Below the threshold the latch is set, with the poll's time if it was clear, and the
event is reported from 200 ms on; not below it the latch is cleared; a failed reading changes neither and reports nothing. -/
def Obligations.SustainedDownIsTimed : Prop :=
  ∀ s : State, let now := s.clockAt 0
    let z := (sampleAt s.cfg.sampleBits (s.answers 0 6) 0).z
    ∃ (t : State) (v : Byte), exec .eventFlags s = .next t ∧ t.responses = s.responses ++ [⟨.ok, v, []⟩] ∧
      (s.ReadAcked 0 6 → z < s.cfg.zDownThreshold →
        t.downLatch = true ∧ t.downStartMs = (if s.downLatch then s.downStartMs else now) ∧
        (v.getLsbD 3 = true ↔ 200 ≤ (now - t.downStartMs).toNat)) ∧
      (s.ReadAcked 0 6 → s.cfg.zDownThreshold ≤ z →
        t.downLatch = false ∧ t.downStartMs = s.downStartMs ∧ v.getLsbD 3 = false) ∧
      (¬ s.ReadAcked 0 6 → t.downLatch = s.downLatch ∧ t.downStartMs = s.downStartMs ∧ v.getLsbD 3 = false)

/-- R223, R224, R226: the click part of a poll, after its orientation reading has left the bus answers of `u`. With the line
asserted and the latch clear, a successful read of the click source sets the latch and overwrites the flags; if they qualify
(active, single, on the designated axis) both counters, as expiry left them, go up by one, saturating at 255, the time is
recorded and the event reported; if they do not, or the read fails, or the latch is set, or the line is deasserted, no click
counts. On the bus a poll is one READ of six bytes at `REG_OUT` (R222), then one of the click source where this part reads it,
and nothing more. -/
def Obligations.ClickIsCountedOncePerAssertion : Prop :=
  ∀ s : State, let now := s.clockAt 0
    let x := expireWindows now s.enterForeground.sampleClock
    let u := (instant x).2
    let f := decodeClick s.cfg.clickLayout (u.busAt 5).byte
    let level := (s.lineStepsAt 0).getLastD s.irqLine
    let counts := f.active = true ∧ f.single = true ∧ f.axis s.cfg.clickAxis = true
    (s.ReadAcked 0 6 → u.busFeed = feedSkip s.busFeed 12 ∧
      u.trace = s.trace ++ readTrace s.cfg s.busAddr s.cfg.regOut (s.answers 0 6)) ∧
    ∃ (t : State) (v : Byte), exec .eventFlags s = .next t ∧ t.responses = s.responses ++ [⟨.ok, v, []⟩] ∧
      (level = true → s.clickSeen = false → u.ReadAcked 0 1 → t.clickSeen = true ∧ t.clickFlags = f ∧
        t.trace = u.trace ++ readTrace s.cfg s.busAddr s.cfg.regClickSrc (u.answers 0 1) ∧
        (counts → v.getLsbD 2 = true ∧ t.lastClickMs = now ∧
          t.fastCount.toNat = min (x.fastCount.toNat + 1) 255 ∧ t.slowCount.toNat = min (x.slowCount.toNat + 1) 255) ∧
        (¬ counts → v.getLsbD 2 = false)) ∧
      (level = true → s.clickSeen = false → ¬ u.ReadAcked 0 1 →
        t.clickSeen = false ∧ t.clickFlags = s.clickFlags ∧ v.getLsbD 2 = false) ∧
      (level = true → s.clickSeen = true → t.clickSeen = true ∧ t.clickFlags = s.clickFlags ∧ v.getLsbD 2 = false ∧
        t.busFeed = u.busFeed ∧ t.trace = u.trace) ∧
      (level = false → t.clickSeen = false ∧ t.clickFlags = s.clickFlags ∧ v.getLsbD 2 = false ∧ t.busFeed = u.busFeed ∧
        t.trace = u.trace)

/-- R225: EVENTS_CLEAR sets both counters to zero, is answered OK without an event, and changes nothing else; a poll that follows
it reports no window end for the cleared run. -/
def Obligations.EventsClearZeroesTheCounters : Prop :=
  (∀ s : State, exec .eventsClear s = .next { s with
    fastCount := 0
    slowCount := 0
    ctx := .idle
    responses := s.responses ++ [⟨.ok, 0, []⟩] }) ∧
  (∀ s t : State, exec .eventsClear s = .next t → ∃ (u : State) (v : Byte), exec .eventFlags t = .next u ∧
    u.responses = t.responses ++ [⟨.ok, v, []⟩] ∧ v.getLsbD 0 = false ∧ v.getLsbD 1 = false)

/-! ## The whole machine -/

/-- The invariants of 10_state.md R44 hold after reset, for any parameters that meet their constraints, and so for the
parameters `State.reset` carries (log 1). The clause on samples holds there by the model's zero samples (log 4). -/
def Obligations.InvariantsHoldAtReset : Prop :=
  (∀ (p : Params) (level : Bool), p.wf → (State.resetWith p level).Inv) ∧ State.reset.Inv

/-- Every step keeps the invariants of 10_state.md R44 (with R22, R25, R36, R253), from every state that meets them and for
every behaviour of the environment. -/
def Obligations.EveryStepKeepsTheInvariants : Prop :=
  ∀ s t : State, s.Inv → step s = .next t → t.Inv

/-- 10_state.md R42, U8: no step depends on a register content that R42 calls unspecified. Two states that differ in nothing
else step alike, and the states after differ in nothing else. -/
def Obligations.UnspecifiedContentsAreNeverRead : Prop :=
  ∀ s : State, scrubOutcome (step s.scrub) = scrubOutcome (step s)

/-- 60_exceptions.md R252, R267: from a safe state every step ends in a next state, but for one: an INIT taken from the port with
the self-test built in, which is refused (R135; log 11). In no state is anything else refused. -/
def Obligations.SafeBlockAlwaysSteps : Prop :=
  (∀ s : State, s.Safe → let refused := s.cfg.selfTest = true ∧ s.irqPending = false ∧
      ∃ w, s.nextEvent = .command w ∧ decode w = .ok .init
    (¬ refused → ∃ t, step s = .next t) ∧ (refused → step s = .refused .selfTestBuiltIn)) ∧
  (∀ (s : State) (r : Refusal), step s = .refused r → r = .selfTestBuiltIn ∧ s.cfg.selfTest = true ∧
    ∃ w, s.nextEvent = .command w ∧ decode w = .ok .init)

/-- 60_exceptions.md R252, R253, R259: only INIT and ENABLE can halt the block, with the code of one of their causes and without
a response; no other command and no SERVICE can. -/
def Obligations.OnlyInitAndEnableHalt : Prop :=
  ∀ s t : State, step s = .next t → s.halted = false → t.halted = true →
    t.fatalComponent = s.cfg.componentId ∧ t.responses = s.responses ∧ t.ctx = .idle ∧
    ∃ w, s.nextEvent = .command w ∧
      ((decode w = .ok .init ∧ (t.fatalCode = s.cfg.fatalDiscovery ∨ t.fatalCode = s.cfg.fatalIdentity)) ∨
        (decode w = .ok .enable ∧ t.fatalCode = s.cfg.fatalConfig))

/-- 30_encoding.md R94: every command taken from the port, legal or not, is answered exactly once, or ends in a fatal
termination and is not answered. -/
def Obligations.EveryCommandIsAnsweredOnce : Prop :=
  ∀ (s t : State) (w : CmdWord), s.cmdReady = true → s.nextEvent = .command w → step s = .next t →
    (t.halted = false ∧ ∃ r, t.responses = s.responses ++ [r]) ∨ (t.halted = true ∧ t.responses = s.responses)

/-- 20_memory.md R73, 60_exceptions.md R266: no step changes a parameter. The record of responses and of the bus, the model's form
of the ports (log 6), only grows. -/
def Obligations.ParametersNeverChangeAndRecordsGrow : Prop :=
  ∀ s t : State, step s = .next t → t.cfg = s.cfg ∧ s.responses <+: t.responses ∧ s.trace <+: t.trace
end

