-- ==== Sys2Proof/Laws/State.lean ====
section
/-! SUPPORT. One lemma per field per named update of the state, each true by rfl. -/

namespace Sys2Proof.Machine

variable (s : State)

@[simp] theorem State.atPhase_cfg (p : TPhase) : (s.atPhase p).cfg = s.cfg := rfl
@[simp] theorem State.atPhase_busAddr (p : TPhase) : (s.atPhase p).busAddr = s.busAddr := rfl
@[simp] theorem State.atPhase_tphase (p : TPhase) : (s.atPhase p).tphase = p := rfl
@[simp] theorem State.atPhase_tcount (p : TPhase) : (s.atPhase p).tcount = s.tcount := rfl
@[simp] theorem State.atPhase_tidx (p : TPhase) : (s.atPhase p).tidx = s.tidx := rfl
@[simp] theorem State.atPhase_rbuf (p : TPhase) : (s.atPhase p).rbuf = s.rbuf := rfl
@[simp] theorem State.atPhase_rlen (p : TPhase) : (s.atPhase p).rlen = s.rlen := rfl
@[simp] theorem State.atPhase_buf (p : TPhase) : (s.atPhase p).buf = s.buf := rfl
@[simp] theorem State.atPhase_depth (p : TPhase) : (s.atPhase p).depth = s.depth := rfl
@[simp] theorem State.atPhase_int1Flags (p : TPhase) : (s.atPhase p).int1Flags = s.int1Flags := rfl
@[simp] theorem State.atPhase_int2Flags (p : TPhase) : (s.atPhase p).int2Flags = s.int2Flags := rfl
@[simp] theorem State.atPhase_clickFlags (p : TPhase) : (s.atPhase p).clickFlags = s.clickFlags := rfl
@[simp] theorem State.atPhase_clickSeen (p : TPhase) : (s.atPhase p).clickSeen = s.clickSeen := rfl
@[simp] theorem State.atPhase_downLatch (p : TPhase) : (s.atPhase p).downLatch = s.downLatch := rfl
@[simp] theorem State.atPhase_downStartMs (p : TPhase) : (s.atPhase p).downStartMs = s.downStartMs := rfl
@[simp] theorem State.atPhase_wakeState (p : TPhase) : (s.atPhase p).wakeState = s.wakeState := rfl
@[simp] theorem State.atPhase_irqEn (p : TPhase) : (s.atPhase p).irqEn = s.irqEn := rfl
@[simp] theorem State.atPhase_irqPending (p : TPhase) : (s.atPhase p).irqPending = s.irqPending := rfl
@[simp] theorem State.atPhase_irqLine (p : TPhase) : (s.atPhase p).irqLine = s.irqLine := rfl
@[simp] theorem State.atPhase_spinCount (p : TPhase) : (s.atPhase p).spinCount = s.spinCount := rfl
@[simp] theorem State.atPhase_fastCount (p : TPhase) : (s.atPhase p).fastCount = s.fastCount := rfl
@[simp] theorem State.atPhase_slowCount (p : TPhase) : (s.atPhase p).slowCount = s.slowCount := rfl
@[simp] theorem State.atPhase_lastClickMs (p : TPhase) : (s.atPhase p).lastClickMs = s.lastClickMs := rfl
@[simp] theorem State.atPhase_halted (p : TPhase) : (s.atPhase p).halted = s.halted := rfl
@[simp] theorem State.atPhase_fatalComponent (p : TPhase) : (s.atPhase p).fatalComponent = s.fatalComponent := rfl
@[simp] theorem State.atPhase_fatalCode (p : TPhase) : (s.atPhase p).fatalCode = s.fatalCode := rfl
@[simp] theorem State.atPhase_ctx (p : TPhase) : (s.atPhase p).ctx = s.ctx := rfl
@[simp] theorem State.atPhase_responses (p : TPhase) : (s.atPhase p).responses = s.responses := rfl
@[simp] theorem State.atPhase_trace (p : TPhase) : (s.atPhase p).trace = s.trace := rfl
@[simp] theorem State.atPhase_busFeed (p : TPhase) : (s.atPhase p).busFeed = s.busFeed := rfl
@[simp] theorem State.atPhase_lineFeed (p : TPhase) : (s.atPhase p).lineFeed = s.lineFeed := rfl
@[simp] theorem State.atPhase_clockFeed (p : TPhase) : (s.atPhase p).clockFeed = s.clockFeed := rfl
@[simp] theorem State.atPhase_eventFeed (p : TPhase) : (s.atPhase p).eventFeed = s.eventFeed := rfl

@[simp] theorem State.emit_cfg (e : BusEvent) : (s.emit e).cfg = s.cfg := rfl
@[simp] theorem State.emit_busAddr (e : BusEvent) : (s.emit e).busAddr = s.busAddr := rfl
@[simp] theorem State.emit_tphase (e : BusEvent) : (s.emit e).tphase = s.tphase := rfl
@[simp] theorem State.emit_tcount (e : BusEvent) : (s.emit e).tcount = s.tcount := rfl
@[simp] theorem State.emit_tidx (e : BusEvent) : (s.emit e).tidx = s.tidx := rfl
@[simp] theorem State.emit_rbuf (e : BusEvent) : (s.emit e).rbuf = s.rbuf := rfl
@[simp] theorem State.emit_rlen (e : BusEvent) : (s.emit e).rlen = s.rlen := rfl
@[simp] theorem State.emit_buf (e : BusEvent) : (s.emit e).buf = s.buf := rfl
@[simp] theorem State.emit_depth (e : BusEvent) : (s.emit e).depth = s.depth := rfl
@[simp] theorem State.emit_int1Flags (e : BusEvent) : (s.emit e).int1Flags = s.int1Flags := rfl
@[simp] theorem State.emit_int2Flags (e : BusEvent) : (s.emit e).int2Flags = s.int2Flags := rfl
@[simp] theorem State.emit_clickFlags (e : BusEvent) : (s.emit e).clickFlags = s.clickFlags := rfl
@[simp] theorem State.emit_clickSeen (e : BusEvent) : (s.emit e).clickSeen = s.clickSeen := rfl
@[simp] theorem State.emit_downLatch (e : BusEvent) : (s.emit e).downLatch = s.downLatch := rfl
@[simp] theorem State.emit_downStartMs (e : BusEvent) : (s.emit e).downStartMs = s.downStartMs := rfl
@[simp] theorem State.emit_wakeState (e : BusEvent) : (s.emit e).wakeState = s.wakeState := rfl
@[simp] theorem State.emit_irqEn (e : BusEvent) : (s.emit e).irqEn = s.irqEn := rfl
@[simp] theorem State.emit_irqPending (e : BusEvent) : (s.emit e).irqPending = s.irqPending := rfl
@[simp] theorem State.emit_irqLine (e : BusEvent) : (s.emit e).irqLine = s.irqLine := rfl
@[simp] theorem State.emit_spinCount (e : BusEvent) : (s.emit e).spinCount = s.spinCount := rfl
@[simp] theorem State.emit_fastCount (e : BusEvent) : (s.emit e).fastCount = s.fastCount := rfl
@[simp] theorem State.emit_slowCount (e : BusEvent) : (s.emit e).slowCount = s.slowCount := rfl
@[simp] theorem State.emit_lastClickMs (e : BusEvent) : (s.emit e).lastClickMs = s.lastClickMs := rfl
@[simp] theorem State.emit_halted (e : BusEvent) : (s.emit e).halted = s.halted := rfl
@[simp] theorem State.emit_fatalComponent (e : BusEvent) : (s.emit e).fatalComponent = s.fatalComponent := rfl
@[simp] theorem State.emit_fatalCode (e : BusEvent) : (s.emit e).fatalCode = s.fatalCode := rfl
@[simp] theorem State.emit_ctx (e : BusEvent) : (s.emit e).ctx = s.ctx := rfl
@[simp] theorem State.emit_responses (e : BusEvent) : (s.emit e).responses = s.responses := rfl
@[simp] theorem State.emit_trace (e : BusEvent) : (s.emit e).trace = s.trace ++ [e] := rfl
@[simp] theorem State.emit_busFeed (e : BusEvent) : (s.emit e).busFeed = s.busFeed := rfl
@[simp] theorem State.emit_lineFeed (e : BusEvent) : (s.emit e).lineFeed = s.lineFeed := rfl
@[simp] theorem State.emit_clockFeed (e : BusEvent) : (s.emit e).clockFeed = s.clockFeed := rfl
@[simp] theorem State.emit_eventFeed (e : BusEvent) : (s.emit e).eventFeed = s.eventFeed := rfl

@[simp] theorem State.waited_cfg (n : Nat) : (s.waited n).cfg = s.cfg := rfl
@[simp] theorem State.waited_busAddr (n : Nat) : (s.waited n).busAddr = s.busAddr := rfl
@[simp] theorem State.waited_tphase (n : Nat) : (s.waited n).tphase = s.tphase := rfl
@[simp] theorem State.waited_tcount (n : Nat) : (s.waited n).tcount = n := rfl
@[simp] theorem State.waited_tidx (n : Nat) : (s.waited n).tidx = s.tidx := rfl
@[simp] theorem State.waited_rbuf (n : Nat) : (s.waited n).rbuf = s.rbuf := rfl
@[simp] theorem State.waited_rlen (n : Nat) : (s.waited n).rlen = s.rlen := rfl
@[simp] theorem State.waited_buf (n : Nat) : (s.waited n).buf = s.buf := rfl
@[simp] theorem State.waited_depth (n : Nat) : (s.waited n).depth = s.depth := rfl
@[simp] theorem State.waited_int1Flags (n : Nat) : (s.waited n).int1Flags = s.int1Flags := rfl
@[simp] theorem State.waited_int2Flags (n : Nat) : (s.waited n).int2Flags = s.int2Flags := rfl
@[simp] theorem State.waited_clickFlags (n : Nat) : (s.waited n).clickFlags = s.clickFlags := rfl
@[simp] theorem State.waited_clickSeen (n : Nat) : (s.waited n).clickSeen = s.clickSeen := rfl
@[simp] theorem State.waited_downLatch (n : Nat) : (s.waited n).downLatch = s.downLatch := rfl
@[simp] theorem State.waited_downStartMs (n : Nat) : (s.waited n).downStartMs = s.downStartMs := rfl
@[simp] theorem State.waited_wakeState (n : Nat) : (s.waited n).wakeState = s.wakeState := rfl
@[simp] theorem State.waited_irqEn (n : Nat) : (s.waited n).irqEn = s.irqEn := rfl
@[simp] theorem State.waited_irqPending (n : Nat) : (s.waited n).irqPending = s.irqPending := rfl
@[simp] theorem State.waited_irqLine (n : Nat) : (s.waited n).irqLine = s.irqLine := rfl
@[simp] theorem State.waited_spinCount (n : Nat) : (s.waited n).spinCount = s.spinCount := rfl
@[simp] theorem State.waited_fastCount (n : Nat) : (s.waited n).fastCount = s.fastCount := rfl
@[simp] theorem State.waited_slowCount (n : Nat) : (s.waited n).slowCount = s.slowCount := rfl
@[simp] theorem State.waited_lastClickMs (n : Nat) : (s.waited n).lastClickMs = s.lastClickMs := rfl
@[simp] theorem State.waited_halted (n : Nat) : (s.waited n).halted = s.halted := rfl
@[simp] theorem State.waited_fatalComponent (n : Nat) : (s.waited n).fatalComponent = s.fatalComponent := rfl
@[simp] theorem State.waited_fatalCode (n : Nat) : (s.waited n).fatalCode = s.fatalCode := rfl
@[simp] theorem State.waited_ctx (n : Nat) : (s.waited n).ctx = s.ctx := rfl
@[simp] theorem State.waited_responses (n : Nat) : (s.waited n).responses = s.responses := rfl
@[simp] theorem State.waited_trace (n : Nat) : (s.waited n).trace = s.trace := rfl
@[simp] theorem State.waited_busFeed (n : Nat) : (s.waited n).busFeed = feedSkip s.busFeed 1 := rfl
@[simp] theorem State.waited_lineFeed (n : Nat) : (s.waited n).lineFeed = s.lineFeed := rfl
@[simp] theorem State.waited_clockFeed (n : Nat) : (s.waited n).clockFeed = s.clockFeed := rfl
@[simp] theorem State.waited_eventFeed (n : Nat) : (s.waited n).eventFeed = s.eventFeed := rfl

@[simp] theorem State.storeByte_cfg (b : Byte) : (s.storeByte b).cfg = s.cfg := rfl
@[simp] theorem State.storeByte_busAddr (b : Byte) : (s.storeByte b).busAddr = s.busAddr := rfl
@[simp] theorem State.storeByte_tphase (b : Byte) : (s.storeByte b).tphase = s.tphase := rfl
@[simp] theorem State.storeByte_tcount (b : Byte) : (s.storeByte b).tcount = s.tcount := rfl
@[simp] theorem State.storeByte_tidx (b : Byte) : (s.storeByte b).tidx = s.tidx + 1 := rfl
@[simp] theorem State.storeByte_rbuf (b : Byte) : (s.storeByte b).rbuf = s.rbuf.setIfInBounds s.tidx.toNat b := rfl
@[simp] theorem State.storeByte_rlen (b : Byte) : (s.storeByte b).rlen = s.rlen := rfl
@[simp] theorem State.storeByte_buf (b : Byte) : (s.storeByte b).buf = s.buf := rfl
@[simp] theorem State.storeByte_depth (b : Byte) : (s.storeByte b).depth = s.depth := rfl
@[simp] theorem State.storeByte_int1Flags (b : Byte) : (s.storeByte b).int1Flags = s.int1Flags := rfl
@[simp] theorem State.storeByte_int2Flags (b : Byte) : (s.storeByte b).int2Flags = s.int2Flags := rfl
@[simp] theorem State.storeByte_clickFlags (b : Byte) : (s.storeByte b).clickFlags = s.clickFlags := rfl
@[simp] theorem State.storeByte_clickSeen (b : Byte) : (s.storeByte b).clickSeen = s.clickSeen := rfl
@[simp] theorem State.storeByte_downLatch (b : Byte) : (s.storeByte b).downLatch = s.downLatch := rfl
@[simp] theorem State.storeByte_downStartMs (b : Byte) : (s.storeByte b).downStartMs = s.downStartMs := rfl
@[simp] theorem State.storeByte_wakeState (b : Byte) : (s.storeByte b).wakeState = s.wakeState := rfl
@[simp] theorem State.storeByte_irqEn (b : Byte) : (s.storeByte b).irqEn = s.irqEn := rfl
@[simp] theorem State.storeByte_irqPending (b : Byte) : (s.storeByte b).irqPending = s.irqPending := rfl
@[simp] theorem State.storeByte_irqLine (b : Byte) : (s.storeByte b).irqLine = s.irqLine := rfl
@[simp] theorem State.storeByte_spinCount (b : Byte) : (s.storeByte b).spinCount = s.spinCount := rfl
@[simp] theorem State.storeByte_fastCount (b : Byte) : (s.storeByte b).fastCount = s.fastCount := rfl
@[simp] theorem State.storeByte_slowCount (b : Byte) : (s.storeByte b).slowCount = s.slowCount := rfl
@[simp] theorem State.storeByte_lastClickMs (b : Byte) : (s.storeByte b).lastClickMs = s.lastClickMs := rfl
@[simp] theorem State.storeByte_halted (b : Byte) : (s.storeByte b).halted = s.halted := rfl
@[simp] theorem State.storeByte_fatalComponent (b : Byte) : (s.storeByte b).fatalComponent = s.fatalComponent := rfl
@[simp] theorem State.storeByte_fatalCode (b : Byte) : (s.storeByte b).fatalCode = s.fatalCode := rfl
@[simp] theorem State.storeByte_ctx (b : Byte) : (s.storeByte b).ctx = s.ctx := rfl
@[simp] theorem State.storeByte_responses (b : Byte) : (s.storeByte b).responses = s.responses := rfl
@[simp] theorem State.storeByte_trace (b : Byte) : (s.storeByte b).trace = s.trace := rfl
@[simp] theorem State.storeByte_busFeed (b : Byte) : (s.storeByte b).busFeed = s.busFeed := rfl
@[simp] theorem State.storeByte_lineFeed (b : Byte) : (s.storeByte b).lineFeed = s.lineFeed := rfl
@[simp] theorem State.storeByte_clockFeed (b : Byte) : (s.storeByte b).clockFeed = s.clockFeed := rfl
@[simp] theorem State.storeByte_eventFeed (b : Byte) : (s.storeByte b).eventFeed = s.eventFeed := rfl

@[simp] theorem State.enterForeground_cfg : (s.enterForeground).cfg = s.cfg := rfl
@[simp] theorem State.enterForeground_busAddr : (s.enterForeground).busAddr = s.busAddr := rfl
@[simp] theorem State.enterForeground_tphase : (s.enterForeground).tphase = s.tphase := rfl
@[simp] theorem State.enterForeground_tcount : (s.enterForeground).tcount = s.tcount := rfl
@[simp] theorem State.enterForeground_tidx : (s.enterForeground).tidx = s.tidx := rfl
@[simp] theorem State.enterForeground_rbuf : (s.enterForeground).rbuf = s.rbuf := rfl
@[simp] theorem State.enterForeground_rlen : (s.enterForeground).rlen = s.rlen := rfl
@[simp] theorem State.enterForeground_buf : (s.enterForeground).buf = s.buf := rfl
@[simp] theorem State.enterForeground_depth : (s.enterForeground).depth = s.depth := rfl
@[simp] theorem State.enterForeground_int1Flags : (s.enterForeground).int1Flags = s.int1Flags := rfl
@[simp] theorem State.enterForeground_int2Flags : (s.enterForeground).int2Flags = s.int2Flags := rfl
@[simp] theorem State.enterForeground_clickFlags : (s.enterForeground).clickFlags = s.clickFlags := rfl
@[simp] theorem State.enterForeground_clickSeen : (s.enterForeground).clickSeen = s.clickSeen := rfl
@[simp] theorem State.enterForeground_downLatch : (s.enterForeground).downLatch = s.downLatch := rfl
@[simp] theorem State.enterForeground_downStartMs : (s.enterForeground).downStartMs = s.downStartMs := rfl
@[simp] theorem State.enterForeground_wakeState : (s.enterForeground).wakeState = s.wakeState := rfl
@[simp] theorem State.enterForeground_irqEn : (s.enterForeground).irqEn = s.irqEn := rfl
@[simp] theorem State.enterForeground_irqPending : (s.enterForeground).irqPending = s.irqPending := rfl
@[simp] theorem State.enterForeground_irqLine : (s.enterForeground).irqLine = s.irqLine := rfl
@[simp] theorem State.enterForeground_spinCount : (s.enterForeground).spinCount = s.spinCount := rfl
@[simp] theorem State.enterForeground_fastCount : (s.enterForeground).fastCount = s.fastCount := rfl
@[simp] theorem State.enterForeground_slowCount : (s.enterForeground).slowCount = s.slowCount := rfl
@[simp] theorem State.enterForeground_lastClickMs : (s.enterForeground).lastClickMs = s.lastClickMs := rfl
@[simp] theorem State.enterForeground_halted : (s.enterForeground).halted = s.halted := rfl
@[simp] theorem State.enterForeground_fatalComponent : (s.enterForeground).fatalComponent = s.fatalComponent := rfl
@[simp] theorem State.enterForeground_fatalCode : (s.enterForeground).fatalCode = s.fatalCode := rfl
@[simp] theorem State.enterForeground_ctx : (s.enterForeground).ctx = .foreground := rfl
@[simp] theorem State.enterForeground_responses : (s.enterForeground).responses = s.responses := rfl
@[simp] theorem State.enterForeground_trace : (s.enterForeground).trace = s.trace := rfl
@[simp] theorem State.enterForeground_busFeed : (s.enterForeground).busFeed = s.busFeed := rfl
@[simp] theorem State.enterForeground_lineFeed : (s.enterForeground).lineFeed = s.lineFeed := rfl
@[simp] theorem State.enterForeground_clockFeed : (s.enterForeground).clockFeed = s.clockFeed := rfl
@[simp] theorem State.enterForeground_eventFeed : (s.enterForeground).eventFeed = s.eventFeed := rfl

@[simp] theorem State.respond_cfg (st : Status) (v : Byte) (d : List Byte) : (s.respond st v d).cfg = s.cfg := rfl
@[simp] theorem State.respond_busAddr (st : Status) (v : Byte) (d : List Byte) : (s.respond st v d).busAddr = s.busAddr := rfl
@[simp] theorem State.respond_tphase (st : Status) (v : Byte) (d : List Byte) : (s.respond st v d).tphase = s.tphase := rfl
@[simp] theorem State.respond_tcount (st : Status) (v : Byte) (d : List Byte) : (s.respond st v d).tcount = s.tcount := rfl
@[simp] theorem State.respond_tidx (st : Status) (v : Byte) (d : List Byte) : (s.respond st v d).tidx = s.tidx := rfl
@[simp] theorem State.respond_rbuf (st : Status) (v : Byte) (d : List Byte) : (s.respond st v d).rbuf = s.rbuf := rfl
@[simp] theorem State.respond_rlen (st : Status) (v : Byte) (d : List Byte) : (s.respond st v d).rlen = s.rlen := rfl
@[simp] theorem State.respond_buf (st : Status) (v : Byte) (d : List Byte) : (s.respond st v d).buf = s.buf := rfl
@[simp] theorem State.respond_depth (st : Status) (v : Byte) (d : List Byte) : (s.respond st v d).depth = s.depth := rfl
@[simp] theorem State.respond_int1Flags (st : Status) (v : Byte) (d : List Byte) : (s.respond st v d).int1Flags = s.int1Flags := rfl
@[simp] theorem State.respond_int2Flags (st : Status) (v : Byte) (d : List Byte) : (s.respond st v d).int2Flags = s.int2Flags := rfl
@[simp] theorem State.respond_clickFlags (st : Status) (v : Byte) (d : List Byte) : (s.respond st v d).clickFlags = s.clickFlags := rfl
@[simp] theorem State.respond_clickSeen (st : Status) (v : Byte) (d : List Byte) : (s.respond st v d).clickSeen = s.clickSeen := rfl
@[simp] theorem State.respond_downLatch (st : Status) (v : Byte) (d : List Byte) : (s.respond st v d).downLatch = s.downLatch := rfl
@[simp] theorem State.respond_downStartMs (st : Status) (v : Byte) (d : List Byte) : (s.respond st v d).downStartMs = s.downStartMs := rfl
@[simp] theorem State.respond_wakeState (st : Status) (v : Byte) (d : List Byte) : (s.respond st v d).wakeState = s.wakeState := rfl
@[simp] theorem State.respond_irqEn (st : Status) (v : Byte) (d : List Byte) : (s.respond st v d).irqEn = s.irqEn := rfl
@[simp] theorem State.respond_irqPending (st : Status) (v : Byte) (d : List Byte) : (s.respond st v d).irqPending = s.irqPending := rfl
@[simp] theorem State.respond_irqLine (st : Status) (v : Byte) (d : List Byte) : (s.respond st v d).irqLine = s.irqLine := rfl
@[simp] theorem State.respond_spinCount (st : Status) (v : Byte) (d : List Byte) : (s.respond st v d).spinCount = s.spinCount := rfl
@[simp] theorem State.respond_fastCount (st : Status) (v : Byte) (d : List Byte) : (s.respond st v d).fastCount = s.fastCount := rfl
@[simp] theorem State.respond_slowCount (st : Status) (v : Byte) (d : List Byte) : (s.respond st v d).slowCount = s.slowCount := rfl
@[simp] theorem State.respond_lastClickMs (st : Status) (v : Byte) (d : List Byte) : (s.respond st v d).lastClickMs = s.lastClickMs := rfl
@[simp] theorem State.respond_halted (st : Status) (v : Byte) (d : List Byte) : (s.respond st v d).halted = s.halted := rfl
@[simp] theorem State.respond_fatalComponent (st : Status) (v : Byte) (d : List Byte) : (s.respond st v d).fatalComponent = s.fatalComponent := rfl
@[simp] theorem State.respond_fatalCode (st : Status) (v : Byte) (d : List Byte) : (s.respond st v d).fatalCode = s.fatalCode := rfl
@[simp] theorem State.respond_ctx (st : Status) (v : Byte) (d : List Byte) : (s.respond st v d).ctx = .idle := rfl
@[simp] theorem State.respond_responses (st : Status) (v : Byte) (d : List Byte) : (s.respond st v d).responses = s.responses ++ [⟨st, v, d⟩] := rfl
@[simp] theorem State.respond_trace (st : Status) (v : Byte) (d : List Byte) : (s.respond st v d).trace = s.trace := rfl
@[simp] theorem State.respond_busFeed (st : Status) (v : Byte) (d : List Byte) : (s.respond st v d).busFeed = s.busFeed := rfl
@[simp] theorem State.respond_lineFeed (st : Status) (v : Byte) (d : List Byte) : (s.respond st v d).lineFeed = s.lineFeed := rfl
@[simp] theorem State.respond_clockFeed (st : Status) (v : Byte) (d : List Byte) : (s.respond st v d).clockFeed = s.clockFeed := rfl
@[simp] theorem State.respond_eventFeed (st : Status) (v : Byte) (d : List Byte) : (s.respond st v d).eventFeed = s.eventFeed := rfl

@[simp] theorem State.raiseFatal_cfg (c : Nat) : (s.raiseFatal c).cfg = s.cfg := rfl
@[simp] theorem State.raiseFatal_busAddr (c : Nat) : (s.raiseFatal c).busAddr = s.busAddr := rfl
@[simp] theorem State.raiseFatal_tphase (c : Nat) : (s.raiseFatal c).tphase = .idle := rfl
@[simp] theorem State.raiseFatal_tcount (c : Nat) : (s.raiseFatal c).tcount = s.tcount := rfl
@[simp] theorem State.raiseFatal_tidx (c : Nat) : (s.raiseFatal c).tidx = s.tidx := rfl
@[simp] theorem State.raiseFatal_rbuf (c : Nat) : (s.raiseFatal c).rbuf = s.rbuf := rfl
@[simp] theorem State.raiseFatal_rlen (c : Nat) : (s.raiseFatal c).rlen = s.rlen := rfl
@[simp] theorem State.raiseFatal_buf (c : Nat) : (s.raiseFatal c).buf = s.buf := rfl
@[simp] theorem State.raiseFatal_depth (c : Nat) : (s.raiseFatal c).depth = s.depth := rfl
@[simp] theorem State.raiseFatal_int1Flags (c : Nat) : (s.raiseFatal c).int1Flags = s.int1Flags := rfl
@[simp] theorem State.raiseFatal_int2Flags (c : Nat) : (s.raiseFatal c).int2Flags = s.int2Flags := rfl
@[simp] theorem State.raiseFatal_clickFlags (c : Nat) : (s.raiseFatal c).clickFlags = s.clickFlags := rfl
@[simp] theorem State.raiseFatal_clickSeen (c : Nat) : (s.raiseFatal c).clickSeen = s.clickSeen := rfl
@[simp] theorem State.raiseFatal_downLatch (c : Nat) : (s.raiseFatal c).downLatch = s.downLatch := rfl
@[simp] theorem State.raiseFatal_downStartMs (c : Nat) : (s.raiseFatal c).downStartMs = s.downStartMs := rfl
@[simp] theorem State.raiseFatal_wakeState (c : Nat) : (s.raiseFatal c).wakeState = s.wakeState := rfl
@[simp] theorem State.raiseFatal_irqEn (c : Nat) : (s.raiseFatal c).irqEn = s.irqEn := rfl
@[simp] theorem State.raiseFatal_irqPending (c : Nat) : (s.raiseFatal c).irqPending = s.irqPending := rfl
@[simp] theorem State.raiseFatal_irqLine (c : Nat) : (s.raiseFatal c).irqLine = s.irqLine := rfl
@[simp] theorem State.raiseFatal_spinCount (c : Nat) : (s.raiseFatal c).spinCount = s.spinCount := rfl
@[simp] theorem State.raiseFatal_fastCount (c : Nat) : (s.raiseFatal c).fastCount = s.fastCount := rfl
@[simp] theorem State.raiseFatal_slowCount (c : Nat) : (s.raiseFatal c).slowCount = s.slowCount := rfl
@[simp] theorem State.raiseFatal_lastClickMs (c : Nat) : (s.raiseFatal c).lastClickMs = s.lastClickMs := rfl
@[simp] theorem State.raiseFatal_halted (c : Nat) : (s.raiseFatal c).halted = true := rfl
@[simp] theorem State.raiseFatal_fatalComponent (c : Nat) : (s.raiseFatal c).fatalComponent = s.cfg.componentId := rfl
@[simp] theorem State.raiseFatal_fatalCode (c : Nat) : (s.raiseFatal c).fatalCode = c := rfl
@[simp] theorem State.raiseFatal_ctx (c : Nat) : (s.raiseFatal c).ctx = .idle := rfl
@[simp] theorem State.raiseFatal_responses (c : Nat) : (s.raiseFatal c).responses = s.responses := rfl
@[simp] theorem State.raiseFatal_trace (c : Nat) : (s.raiseFatal c).trace = s.trace := rfl
@[simp] theorem State.raiseFatal_busFeed (c : Nat) : (s.raiseFatal c).busFeed = s.busFeed := rfl
@[simp] theorem State.raiseFatal_lineFeed (c : Nat) : (s.raiseFatal c).lineFeed = s.lineFeed := rfl
@[simp] theorem State.raiseFatal_clockFeed (c : Nat) : (s.raiseFatal c).clockFeed = s.clockFeed := rfl
@[simp] theorem State.raiseFatal_eventFeed (c : Nat) : (s.raiseFatal c).eventFeed = s.eventFeed := rfl

@[simp] theorem State.enterService_cfg : (s.enterService).cfg = s.cfg := rfl
@[simp] theorem State.enterService_busAddr : (s.enterService).busAddr = s.busAddr := rfl
@[simp] theorem State.enterService_tphase : (s.enterService).tphase = s.tphase := rfl
@[simp] theorem State.enterService_tcount : (s.enterService).tcount = s.tcount := rfl
@[simp] theorem State.enterService_tidx : (s.enterService).tidx = s.tidx := rfl
@[simp] theorem State.enterService_rbuf : (s.enterService).rbuf = s.rbuf := rfl
@[simp] theorem State.enterService_rlen : (s.enterService).rlen = s.rlen := rfl
@[simp] theorem State.enterService_buf : (s.enterService).buf = s.buf := rfl
@[simp] theorem State.enterService_depth : (s.enterService).depth = s.depth := rfl
@[simp] theorem State.enterService_int1Flags : (s.enterService).int1Flags = .none := rfl
@[simp] theorem State.enterService_int2Flags : (s.enterService).int2Flags = .none := rfl
@[simp] theorem State.enterService_clickFlags : (s.enterService).clickFlags = .none := rfl
@[simp] theorem State.enterService_clickSeen : (s.enterService).clickSeen = s.clickSeen := rfl
@[simp] theorem State.enterService_downLatch : (s.enterService).downLatch = s.downLatch := rfl
@[simp] theorem State.enterService_downStartMs : (s.enterService).downStartMs = s.downStartMs := rfl
@[simp] theorem State.enterService_wakeState : (s.enterService).wakeState = s.wakeState := rfl
@[simp] theorem State.enterService_irqEn : (s.enterService).irqEn = s.irqEn := rfl
@[simp] theorem State.enterService_irqPending : (s.enterService).irqPending = s.irqPending := rfl
@[simp] theorem State.enterService_irqLine : (s.enterService).irqLine = s.irqLine := rfl
@[simp] theorem State.enterService_spinCount : (s.enterService).spinCount = s.spinCount := rfl
@[simp] theorem State.enterService_fastCount : (s.enterService).fastCount = s.fastCount := rfl
@[simp] theorem State.enterService_slowCount : (s.enterService).slowCount = s.slowCount := rfl
@[simp] theorem State.enterService_lastClickMs : (s.enterService).lastClickMs = s.lastClickMs := rfl
@[simp] theorem State.enterService_halted : (s.enterService).halted = s.halted := rfl
@[simp] theorem State.enterService_fatalComponent : (s.enterService).fatalComponent = s.fatalComponent := rfl
@[simp] theorem State.enterService_fatalCode : (s.enterService).fatalCode = s.fatalCode := rfl
@[simp] theorem State.enterService_ctx : (s.enterService).ctx = .interrupt := rfl
@[simp] theorem State.enterService_responses : (s.enterService).responses = s.responses := rfl
@[simp] theorem State.enterService_trace : (s.enterService).trace = s.trace := rfl
@[simp] theorem State.enterService_busFeed : (s.enterService).busFeed = s.busFeed := rfl
@[simp] theorem State.enterService_lineFeed : (s.enterService).lineFeed = s.lineFeed := rfl
@[simp] theorem State.enterService_clockFeed : (s.enterService).clockFeed = s.clockFeed := rfl
@[simp] theorem State.enterService_eventFeed : (s.enterService).eventFeed = s.eventFeed := rfl

@[simp] theorem State.leaveService_cfg : (s.leaveService).cfg = s.cfg := rfl
@[simp] theorem State.leaveService_busAddr : (s.leaveService).busAddr = s.busAddr := rfl
@[simp] theorem State.leaveService_tphase : (s.leaveService).tphase = s.tphase := rfl
@[simp] theorem State.leaveService_tcount : (s.leaveService).tcount = s.tcount := rfl
@[simp] theorem State.leaveService_tidx : (s.leaveService).tidx = s.tidx := rfl
@[simp] theorem State.leaveService_rbuf : (s.leaveService).rbuf = s.rbuf := rfl
@[simp] theorem State.leaveService_rlen : (s.leaveService).rlen = s.rlen := rfl
@[simp] theorem State.leaveService_buf : (s.leaveService).buf = s.buf := rfl
@[simp] theorem State.leaveService_depth : (s.leaveService).depth = s.depth := rfl
@[simp] theorem State.leaveService_int1Flags : (s.leaveService).int1Flags = s.int1Flags := rfl
@[simp] theorem State.leaveService_int2Flags : (s.leaveService).int2Flags = s.int2Flags := rfl
@[simp] theorem State.leaveService_clickFlags : (s.leaveService).clickFlags = s.clickFlags := rfl
@[simp] theorem State.leaveService_clickSeen : (s.leaveService).clickSeen = s.clickSeen := rfl
@[simp] theorem State.leaveService_downLatch : (s.leaveService).downLatch = s.downLatch := rfl
@[simp] theorem State.leaveService_downStartMs : (s.leaveService).downStartMs = s.downStartMs := rfl
@[simp] theorem State.leaveService_wakeState : (s.leaveService).wakeState = s.wakeState := rfl
@[simp] theorem State.leaveService_irqEn : (s.leaveService).irqEn = s.irqEn := rfl
@[simp] theorem State.leaveService_irqPending : (s.leaveService).irqPending = s.irqPending := rfl
@[simp] theorem State.leaveService_irqLine : (s.leaveService).irqLine = s.irqLine := rfl
@[simp] theorem State.leaveService_spinCount : (s.leaveService).spinCount = s.spinCount := rfl
@[simp] theorem State.leaveService_fastCount : (s.leaveService).fastCount = s.fastCount := rfl
@[simp] theorem State.leaveService_slowCount : (s.leaveService).slowCount = s.slowCount := rfl
@[simp] theorem State.leaveService_lastClickMs : (s.leaveService).lastClickMs = s.lastClickMs := rfl
@[simp] theorem State.leaveService_halted : (s.leaveService).halted = s.halted := rfl
@[simp] theorem State.leaveService_fatalComponent : (s.leaveService).fatalComponent = s.fatalComponent := rfl
@[simp] theorem State.leaveService_fatalCode : (s.leaveService).fatalCode = s.fatalCode := rfl
@[simp] theorem State.leaveService_ctx : (s.leaveService).ctx = .idle := rfl
@[simp] theorem State.leaveService_responses : (s.leaveService).responses = s.responses := rfl
@[simp] theorem State.leaveService_trace : (s.leaveService).trace = s.trace := rfl
@[simp] theorem State.leaveService_busFeed : (s.leaveService).busFeed = s.busFeed := rfl
@[simp] theorem State.leaveService_lineFeed : (s.leaveService).lineFeed = s.lineFeed := rfl
@[simp] theorem State.leaveService_clockFeed : (s.leaveService).clockFeed = s.clockFeed := rfl
@[simp] theorem State.leaveService_eventFeed : (s.leaveService).eventFeed = s.eventFeed := rfl

@[simp] theorem State.takeEvent_cfg : (s.takeEvent).cfg = s.cfg := rfl
@[simp] theorem State.takeEvent_busAddr : (s.takeEvent).busAddr = s.busAddr := rfl
@[simp] theorem State.takeEvent_tphase : (s.takeEvent).tphase = s.tphase := rfl
@[simp] theorem State.takeEvent_tcount : (s.takeEvent).tcount = s.tcount := rfl
@[simp] theorem State.takeEvent_tidx : (s.takeEvent).tidx = s.tidx := rfl
@[simp] theorem State.takeEvent_rbuf : (s.takeEvent).rbuf = s.rbuf := rfl
@[simp] theorem State.takeEvent_rlen : (s.takeEvent).rlen = s.rlen := rfl
@[simp] theorem State.takeEvent_buf : (s.takeEvent).buf = s.buf := rfl
@[simp] theorem State.takeEvent_depth : (s.takeEvent).depth = s.depth := rfl
@[simp] theorem State.takeEvent_int1Flags : (s.takeEvent).int1Flags = s.int1Flags := rfl
@[simp] theorem State.takeEvent_int2Flags : (s.takeEvent).int2Flags = s.int2Flags := rfl
@[simp] theorem State.takeEvent_clickFlags : (s.takeEvent).clickFlags = s.clickFlags := rfl
@[simp] theorem State.takeEvent_clickSeen : (s.takeEvent).clickSeen = s.clickSeen := rfl
@[simp] theorem State.takeEvent_downLatch : (s.takeEvent).downLatch = s.downLatch := rfl
@[simp] theorem State.takeEvent_downStartMs : (s.takeEvent).downStartMs = s.downStartMs := rfl
@[simp] theorem State.takeEvent_wakeState : (s.takeEvent).wakeState = s.wakeState := rfl
@[simp] theorem State.takeEvent_irqEn : (s.takeEvent).irqEn = s.irqEn := rfl
@[simp] theorem State.takeEvent_irqPending : (s.takeEvent).irqPending = s.irqPending := rfl
@[simp] theorem State.takeEvent_irqLine : (s.takeEvent).irqLine = s.irqLine := rfl
@[simp] theorem State.takeEvent_spinCount : (s.takeEvent).spinCount = s.spinCount := rfl
@[simp] theorem State.takeEvent_fastCount : (s.takeEvent).fastCount = s.fastCount := rfl
@[simp] theorem State.takeEvent_slowCount : (s.takeEvent).slowCount = s.slowCount := rfl
@[simp] theorem State.takeEvent_lastClickMs : (s.takeEvent).lastClickMs = s.lastClickMs := rfl
@[simp] theorem State.takeEvent_halted : (s.takeEvent).halted = s.halted := rfl
@[simp] theorem State.takeEvent_fatalComponent : (s.takeEvent).fatalComponent = s.fatalComponent := rfl
@[simp] theorem State.takeEvent_fatalCode : (s.takeEvent).fatalCode = s.fatalCode := rfl
@[simp] theorem State.takeEvent_ctx : (s.takeEvent).ctx = s.ctx := rfl
@[simp] theorem State.takeEvent_responses : (s.takeEvent).responses = s.responses := rfl
@[simp] theorem State.takeEvent_trace : (s.takeEvent).trace = s.trace := rfl
@[simp] theorem State.takeEvent_busFeed : (s.takeEvent).busFeed = s.busFeed := rfl
@[simp] theorem State.takeEvent_lineFeed : (s.takeEvent).lineFeed = s.lineFeed := rfl
@[simp] theorem State.takeEvent_clockFeed : (s.takeEvent).clockFeed = s.clockFeed := rfl
@[simp] theorem State.takeEvent_eventFeed : (s.takeEvent).eventFeed = feedSkip s.eventFeed 1 := rfl

@[simp] theorem State.sampleClock_cfg : (s.sampleClock).cfg = s.cfg := rfl
@[simp] theorem State.sampleClock_busAddr : (s.sampleClock).busAddr = s.busAddr := rfl
@[simp] theorem State.sampleClock_tphase : (s.sampleClock).tphase = s.tphase := rfl
@[simp] theorem State.sampleClock_tcount : (s.sampleClock).tcount = s.tcount := rfl
@[simp] theorem State.sampleClock_tidx : (s.sampleClock).tidx = s.tidx := rfl
@[simp] theorem State.sampleClock_rbuf : (s.sampleClock).rbuf = s.rbuf := rfl
@[simp] theorem State.sampleClock_rlen : (s.sampleClock).rlen = s.rlen := rfl
@[simp] theorem State.sampleClock_buf : (s.sampleClock).buf = s.buf := rfl
@[simp] theorem State.sampleClock_depth : (s.sampleClock).depth = s.depth := rfl
@[simp] theorem State.sampleClock_int1Flags : (s.sampleClock).int1Flags = s.int1Flags := rfl
@[simp] theorem State.sampleClock_int2Flags : (s.sampleClock).int2Flags = s.int2Flags := rfl
@[simp] theorem State.sampleClock_clickFlags : (s.sampleClock).clickFlags = s.clickFlags := rfl
@[simp] theorem State.sampleClock_clickSeen : (s.sampleClock).clickSeen = s.clickSeen := rfl
@[simp] theorem State.sampleClock_downLatch : (s.sampleClock).downLatch = s.downLatch := rfl
@[simp] theorem State.sampleClock_downStartMs : (s.sampleClock).downStartMs = s.downStartMs := rfl
@[simp] theorem State.sampleClock_wakeState : (s.sampleClock).wakeState = s.wakeState := rfl
@[simp] theorem State.sampleClock_irqEn : (s.sampleClock).irqEn = s.irqEn := rfl
@[simp] theorem State.sampleClock_irqPending : (s.sampleClock).irqPending = s.irqPending := rfl
@[simp] theorem State.sampleClock_irqLine : (s.sampleClock).irqLine = s.irqLine := rfl
@[simp] theorem State.sampleClock_spinCount : (s.sampleClock).spinCount = s.spinCount := rfl
@[simp] theorem State.sampleClock_fastCount : (s.sampleClock).fastCount = s.fastCount := rfl
@[simp] theorem State.sampleClock_slowCount : (s.sampleClock).slowCount = s.slowCount := rfl
@[simp] theorem State.sampleClock_lastClickMs : (s.sampleClock).lastClickMs = s.lastClickMs := rfl
@[simp] theorem State.sampleClock_halted : (s.sampleClock).halted = s.halted := rfl
@[simp] theorem State.sampleClock_fatalComponent : (s.sampleClock).fatalComponent = s.fatalComponent := rfl
@[simp] theorem State.sampleClock_fatalCode : (s.sampleClock).fatalCode = s.fatalCode := rfl
@[simp] theorem State.sampleClock_ctx : (s.sampleClock).ctx = s.ctx := rfl
@[simp] theorem State.sampleClock_responses : (s.sampleClock).responses = s.responses := rfl
@[simp] theorem State.sampleClock_trace : (s.sampleClock).trace = s.trace := rfl
@[simp] theorem State.sampleClock_busFeed : (s.sampleClock).busFeed = s.busFeed := rfl
@[simp] theorem State.sampleClock_lineFeed : (s.sampleClock).lineFeed = s.lineFeed := rfl
@[simp] theorem State.sampleClock_clockFeed : (s.sampleClock).clockFeed = feedSkip s.clockFeed 1 := rfl
@[simp] theorem State.sampleClock_eventFeed : (s.sampleClock).eventFeed = s.eventFeed := rfl

@[simp] theorem lineStep_cfg (l : Bool) : (lineStep l s).cfg = s.cfg := rfl
@[simp] theorem lineStep_busAddr (l : Bool) : (lineStep l s).busAddr = s.busAddr := rfl
@[simp] theorem lineStep_tphase (l : Bool) : (lineStep l s).tphase = s.tphase := rfl
@[simp] theorem lineStep_tcount (l : Bool) : (lineStep l s).tcount = s.tcount := rfl
@[simp] theorem lineStep_tidx (l : Bool) : (lineStep l s).tidx = s.tidx := rfl
@[simp] theorem lineStep_rbuf (l : Bool) : (lineStep l s).rbuf = s.rbuf := rfl
@[simp] theorem lineStep_rlen (l : Bool) : (lineStep l s).rlen = s.rlen := rfl
@[simp] theorem lineStep_buf (l : Bool) : (lineStep l s).buf = s.buf := rfl
@[simp] theorem lineStep_depth (l : Bool) : (lineStep l s).depth = s.depth := rfl
@[simp] theorem lineStep_int1Flags (l : Bool) : (lineStep l s).int1Flags = s.int1Flags := rfl
@[simp] theorem lineStep_int2Flags (l : Bool) : (lineStep l s).int2Flags = s.int2Flags := rfl
@[simp] theorem lineStep_clickFlags (l : Bool) : (lineStep l s).clickFlags = s.clickFlags := rfl
@[simp] theorem lineStep_clickSeen (l : Bool) : (lineStep l s).clickSeen = s.clickSeen := rfl
@[simp] theorem lineStep_downLatch (l : Bool) : (lineStep l s).downLatch = s.downLatch := rfl
@[simp] theorem lineStep_downStartMs (l : Bool) : (lineStep l s).downStartMs = s.downStartMs := rfl
@[simp] theorem lineStep_wakeState (l : Bool) : (lineStep l s).wakeState = s.wakeState := rfl
@[simp] theorem lineStep_irqEn (l : Bool) : (lineStep l s).irqEn = s.irqEn := rfl
@[simp] theorem lineStep_irqPending (l : Bool) : (lineStep l s).irqPending = (s.irqPending || (l && !s.irqLine && s.irqEn)) := rfl
@[simp] theorem lineStep_irqLine (l : Bool) : (lineStep l s).irqLine = l := rfl
@[simp] theorem lineStep_spinCount (l : Bool) : (lineStep l s).spinCount = s.spinCount := rfl
@[simp] theorem lineStep_fastCount (l : Bool) : (lineStep l s).fastCount = s.fastCount := rfl
@[simp] theorem lineStep_slowCount (l : Bool) : (lineStep l s).slowCount = s.slowCount := rfl
@[simp] theorem lineStep_lastClickMs (l : Bool) : (lineStep l s).lastClickMs = s.lastClickMs := rfl
@[simp] theorem lineStep_halted (l : Bool) : (lineStep l s).halted = s.halted := rfl
@[simp] theorem lineStep_fatalComponent (l : Bool) : (lineStep l s).fatalComponent = s.fatalComponent := rfl
@[simp] theorem lineStep_fatalCode (l : Bool) : (lineStep l s).fatalCode = s.fatalCode := rfl
@[simp] theorem lineStep_ctx (l : Bool) : (lineStep l s).ctx = s.ctx := rfl
@[simp] theorem lineStep_responses (l : Bool) : (lineStep l s).responses = s.responses := rfl
@[simp] theorem lineStep_trace (l : Bool) : (lineStep l s).trace = s.trace := rfl
@[simp] theorem lineStep_busFeed (l : Bool) : (lineStep l s).busFeed = s.busFeed := rfl
@[simp] theorem lineStep_lineFeed (l : Bool) : (lineStep l s).lineFeed = s.lineFeed := rfl
@[simp] theorem lineStep_clockFeed (l : Bool) : (lineStep l s).clockFeed = s.clockFeed := rfl
@[simp] theorem lineStep_eventFeed (l : Bool) : (lineStep l s).eventFeed = s.eventFeed := rfl

end Sys2Proof.Machine
end

