-- ==== Sys2Proof/Laws/Frames.lean ====
section
/-! SUPPORT. Frames of the shared operations: which registers the transport and a line sample can change. -/

namespace Sys2Proof.Machine

/-- `t` differs from `s` at most in the transport's registers, the trace and the bus answers used (40_transport.md R120, R121,
R125). -/
structure TransportOnly (s t : State) : Prop where
  cfg : t.cfg = s.cfg
  busAddr : t.busAddr = s.busAddr
  buf : t.buf = s.buf
  depth : t.depth = s.depth
  int1Flags : t.int1Flags = s.int1Flags
  int2Flags : t.int2Flags = s.int2Flags
  clickFlags : t.clickFlags = s.clickFlags
  clickSeen : t.clickSeen = s.clickSeen
  downLatch : t.downLatch = s.downLatch
  downStartMs : t.downStartMs = s.downStartMs
  wakeState : t.wakeState = s.wakeState
  irqEn : t.irqEn = s.irqEn
  irqPending : t.irqPending = s.irqPending
  irqLine : t.irqLine = s.irqLine
  spinCount : t.spinCount = s.spinCount
  fastCount : t.fastCount = s.fastCount
  slowCount : t.slowCount = s.slowCount
  lastClickMs : t.lastClickMs = s.lastClickMs
  halted : t.halted = s.halted
  fatalComponent : t.fatalComponent = s.fatalComponent
  fatalCode : t.fatalCode = s.fatalCode
  ctx : t.ctx = s.ctx
  responses : t.responses = s.responses
  lineFeed : t.lineFeed = s.lineFeed
  clockFeed : t.clockFeed = s.clockFeed
  eventFeed : t.eventFeed = s.eventFeed

theorem TransportOnly.refl (s : State) : TransportOnly s s :=
  ⟨rfl, rfl, rfl, rfl, rfl, rfl, rfl, rfl, rfl, rfl, rfl, rfl, rfl, rfl, rfl, rfl, rfl, rfl, rfl, rfl, rfl, rfl, rfl, rfl, rfl, rfl⟩

theorem TransportOnly.trans {s t u : State} (h : TransportOnly s t) (g : TransportOnly t u) : TransportOnly s u :=
  ⟨g.cfg.trans h.cfg,
    g.busAddr.trans h.busAddr,
    g.buf.trans h.buf,
    g.depth.trans h.depth,
    g.int1Flags.trans h.int1Flags,
    g.int2Flags.trans h.int2Flags,
    g.clickFlags.trans h.clickFlags,
    g.clickSeen.trans h.clickSeen,
    g.downLatch.trans h.downLatch,
    g.downStartMs.trans h.downStartMs,
    g.wakeState.trans h.wakeState,
    g.irqEn.trans h.irqEn,
    g.irqPending.trans h.irqPending,
    g.irqLine.trans h.irqLine,
    g.spinCount.trans h.spinCount,
    g.fastCount.trans h.fastCount,
    g.slowCount.trans h.slowCount,
    g.lastClickMs.trans h.lastClickMs,
    g.halted.trans h.halted,
    g.fatalComponent.trans h.fatalComponent,
    g.fatalCode.trans h.fatalCode,
    g.ctx.trans h.ctx,
    g.responses.trans h.responses,
    g.lineFeed.trans h.lineFeed,
    g.clockFeed.trans h.clockFeed,
    g.eventFeed.trans h.eventFeed⟩

theorem TransportOnly.eq_update {s t : State} (h : TransportOnly s t) :
    t = { s with tphase := t.tphase, tcount := t.tcount, tidx := t.tidx, rbuf := t.rbuf, rlen := t.rlen, trace := t.trace, busFeed := t.busFeed } := by
  cases s; cases t; cases h; simp_all

/-- `t` differs from `s` at most in what `Line` steps write (43_wake_sequencer.md R180) and the line samples used. -/
structure LineOnly (s t : State) : Prop where
  cfg : t.cfg = s.cfg
  busAddr : t.busAddr = s.busAddr
  tphase : t.tphase = s.tphase
  tcount : t.tcount = s.tcount
  tidx : t.tidx = s.tidx
  rbuf : t.rbuf = s.rbuf
  rlen : t.rlen = s.rlen
  buf : t.buf = s.buf
  depth : t.depth = s.depth
  int1Flags : t.int1Flags = s.int1Flags
  int2Flags : t.int2Flags = s.int2Flags
  clickFlags : t.clickFlags = s.clickFlags
  clickSeen : t.clickSeen = s.clickSeen
  downLatch : t.downLatch = s.downLatch
  downStartMs : t.downStartMs = s.downStartMs
  wakeState : t.wakeState = s.wakeState
  irqEn : t.irqEn = s.irqEn
  spinCount : t.spinCount = s.spinCount
  fastCount : t.fastCount = s.fastCount
  slowCount : t.slowCount = s.slowCount
  lastClickMs : t.lastClickMs = s.lastClickMs
  halted : t.halted = s.halted
  fatalComponent : t.fatalComponent = s.fatalComponent
  fatalCode : t.fatalCode = s.fatalCode
  ctx : t.ctx = s.ctx
  responses : t.responses = s.responses
  trace : t.trace = s.trace
  busFeed : t.busFeed = s.busFeed
  clockFeed : t.clockFeed = s.clockFeed
  eventFeed : t.eventFeed = s.eventFeed

theorem LineOnly.refl (s : State) : LineOnly s s :=
  ⟨rfl, rfl, rfl, rfl, rfl, rfl, rfl, rfl, rfl, rfl, rfl, rfl, rfl, rfl, rfl, rfl, rfl, rfl, rfl, rfl, rfl, rfl, rfl, rfl, rfl, rfl, rfl, rfl, rfl, rfl⟩

theorem LineOnly.trans {s t u : State} (h : LineOnly s t) (g : LineOnly t u) : LineOnly s u :=
  ⟨g.cfg.trans h.cfg,
    g.busAddr.trans h.busAddr,
    g.tphase.trans h.tphase,
    g.tcount.trans h.tcount,
    g.tidx.trans h.tidx,
    g.rbuf.trans h.rbuf,
    g.rlen.trans h.rlen,
    g.buf.trans h.buf,
    g.depth.trans h.depth,
    g.int1Flags.trans h.int1Flags,
    g.int2Flags.trans h.int2Flags,
    g.clickFlags.trans h.clickFlags,
    g.clickSeen.trans h.clickSeen,
    g.downLatch.trans h.downLatch,
    g.downStartMs.trans h.downStartMs,
    g.wakeState.trans h.wakeState,
    g.irqEn.trans h.irqEn,
    g.spinCount.trans h.spinCount,
    g.fastCount.trans h.fastCount,
    g.slowCount.trans h.slowCount,
    g.lastClickMs.trans h.lastClickMs,
    g.halted.trans h.halted,
    g.fatalComponent.trans h.fatalComponent,
    g.fatalCode.trans h.fatalCode,
    g.ctx.trans h.ctx,
    g.responses.trans h.responses,
    g.trace.trans h.trace,
    g.busFeed.trans h.busFeed,
    g.clockFeed.trans h.clockFeed,
    g.eventFeed.trans h.eventFeed⟩

theorem LineOnly.eq_update {s t : State} (h : LineOnly s t) :
    t = { s with irqPending := t.irqPending, irqLine := t.irqLine, lineFeed := t.lineFeed } := by
  cases s; cases t; cases h; simp_all

/-- A part of a transaction stays within the transport's registers. -/
def Tx.Local (f : Tx) : Prop := ∀ s, TransportOnly s (f s).2

theorem transportOnly_of_update {s t : State}
    (h : t = { s with tphase := t.tphase, tcount := t.tcount, tidx := t.tidx, rbuf := t.rbuf, rlen := t.rlen, trace := t.trace, busFeed := t.busFeed }) :
    TransportOnly s t := by
  rw [h]; exact ⟨rfl, rfl, rfl, rfl, rfl, rfl, rfl, rfl, rfl, rfl, rfl, rfl, rfl, rfl, rfl, rfl, rfl, rfl, rfl, rfl, rfl, rfl, rfl, rfl, rfl, rfl⟩

theorem waitPoint_transportOnly (s : State) : TransportOnly s (waitPoint s).2 := by
  unfold waitPoint; split <;> exact ⟨rfl, rfl, rfl, rfl, rfl, rfl, rfl, rfl, rfl, rfl, rfl, rfl, rfl, rfl, rfl, rfl, rfl, rfl, rfl, rfl, rfl, rfl, rfl, rfl, rfl, rfl⟩

theorem atPhase_transportOnly (p : TPhase) (s : State) : TransportOnly s (s.atPhase p) :=
  transportOnly_of_update rfl

theorem emit_transportOnly (e : BusEvent) (s : State) : TransportOnly s (s.emit e) := transportOnly_of_update rfl

theorem storeByte_transportOnly (b : Byte) (s : State) : TransportOnly s (s.storeByte b) := transportOnly_of_update rfl

theorem condition_local (p : TPhase) (e : BusEvent) : Tx.Local (condition p e) := by
  intro s
  have h := (atPhase_transportOnly p s).trans (waitPoint_transportOnly (s.atPhase p))
  unfold condition
  dsimp only
  split
  · exact h.trans (emit_transportOnly _ _)
  · exact h

theorem send_local (p : TPhase) (b : Byte) : Tx.Local (send p b) := by
  intro s
  have h := (atPhase_transportOnly p s).trans (waitPoint_transportOnly (s.atPhase p))
  unfold send
  dsimp only
  split
  · exact h.trans (emit_transportOnly _ _)
  · exact h

theorem receiveBytes_local (k : Nat) : Tx.Local (receiveBytes k) := by
  induction k with
  | zero => intro s; exact .refl s
  | succ k ih =>
    intro s
    have h := waitPoint_transportOnly s
    unfold receiveBytes
    dsimp only
    split
    · exact ((h.trans (emit_transportOnly _ _)).trans (storeByte_transportOnly _ _)).trans (ih _)
    · exact h

theorem receiveAll_local (n : Nat) : Tx.Local (receiveAll n) := fun s =>
  (transportOnly_of_update (s := s) (t := { s with tphase := .rdata, tidx := 0 }) rfl).trans (receiveBytes_local n _)

theorem runParts_local (fs : List Tx) (h : ∀ f ∈ fs, f.Local) : Tx.Local (runParts fs) := by
  induction fs with
  | nil => intro s; exact .refl s
  | cons f fs ih =>
    intro s
    have hf := h f (by simp) s
    unfold runParts
    split
    · exact hf.trans (ih (fun g hg => h g (by simp [hg])) _)
    · exact hf

theorem stopBus_local : Tx.Local stopBus := fun s =>
  ((atPhase_transportOnly .stop s).trans (waitPoint_transportOnly _)).trans (emit_transportOnly .stop _)

theorem abandon_transportOnly (s : State) : TransportOnly s s.abandon := transportOnly_of_update rfl

theorem transaction_local (parts : List Tx) (h : ∀ f ∈ parts, f.Local) : Tx.Local (transaction parts) := by
  intro s
  have h1 := condition_local .start .start s
  unfold transaction
  dsimp only
  split
  · have h2 := (h1.trans (runParts_local parts h (condition .start .start s).2)).trans (stopBus_local _)
    split
    · exact h2.trans (atPhase_transportOnly _ _)
    · exact h2.trans (abandon_transportOnly _)
  · exact h1.trans (abandon_transportOnly _)

theorem readParts_local (p : Params) (a : BusAddr) (r : RegNum) (n : Nat) : ∀ f ∈ readParts p a r n, f.Local := by
  intro f hf
  simp only [readParts, List.mem_cons, List.not_mem_nil, or_false] at hf
  obtain rfl | rfl | rfl | rfl | rfl := hf
  exacts [send_local _ _, send_local _ _, condition_local _ _, send_local _ _, receiveAll_local _]

theorem writeParts_local (a : BusAddr) (r : RegNum) (v : Byte) : ∀ f ∈ writeParts a r v, f.Local := by
  intro f hf
  simp only [writeParts, List.mem_cons, List.not_mem_nil, or_false] at hf
  obtain rfl | rfl | rfl := hf
  exacts [send_local _ _, send_local _ _, send_local _ _]

/-- What a READ can change, whatever the bus does (R120, R125). -/
theorem busRead_transportOnly (r : RegNum) (n : Nat) (s : State) : TransportOnly s (busRead r n s).2 := by
  have h := transaction_local _ (readParts_local s.cfg s.busAddr r n) s
  unfold busRead
  dsimp only
  split <;> exact h.trans (transportOnly_of_update rfl)

/-- What a WRITE can change, whatever the bus does (R121, R125). -/
theorem busWrite_transportOnly (r : RegNum) (v : Byte) (s : State) : TransportOnly s (busWrite r v s).2 :=
  transaction_local _ (writeParts_local s.busAddr r v) s

/-- What a list of writes with failures ignored can change (41_device_config.md R133). -/
theorem applySoft_transportOnly (l : WriteList) (s : State) : TransportOnly s (applySoft l s) := by
  induction l generalizing s with
  | nil => exact .refl s
  | cons w l ih => exact (busWrite_transportOnly w.1 w.2 s).trans (ih _)

/-- What a list of writes up to the first failure can change (41_device_config.md R133). -/
theorem applyHard_transportOnly (l : WriteList) (s : State) : TransportOnly s (applyHard l s).2 := by
  induction l generalizing s with
  | nil => exact .refl s
  | cons w l ih =>
    have h := busWrite_transportOnly w.1 w.2 s
    unfold applyHard
    split
    · exact h.trans (ih _)
    · exact h

theorem lineStep_lineOnly (l : Bool) (s : State) : LineOnly s (lineStep l s) :=
  ⟨rfl, rfl, rfl, rfl, rfl, rfl, rfl, rfl, rfl, rfl, rfl, rfl, rfl, rfl, rfl, rfl, rfl, rfl, rfl, rfl, rfl, rfl, rfl, rfl, rfl, rfl, rfl, rfl, rfl, rfl⟩

theorem lineSteps_lineOnly (ls : List Bool) (s : State) : LineOnly s (lineSteps ls s) := by
  induction ls generalizing s with
  | nil => exact .refl s
  | cons l ls ih => exact (lineStep_lineOnly l s).trans (ih _)

/-- What a line sample can change (00_scope.md R9, 43_wake_sequencer.md R180). -/
theorem sampleLine_lineOnly (s : State) : LineOnly s (sampleLine s) := by
  have h : LineOnly s { s with lineFeed := feedSkip s.lineFeed 1 } := ⟨rfl, rfl, rfl, rfl, rfl, rfl, rfl, rfl, rfl, rfl, rfl, rfl, rfl, rfl, rfl, rfl, rfl, rfl, rfl, rfl, rfl, rfl, rfl, rfl, rfl, rfl, rfl, rfl, rfl, rfl⟩
  exact h.trans (lineSteps_lineOnly _ _)

@[simp] theorem busRead_cfg (r : RegNum) (n : Nat) (s : State) : (busRead r n s).2.cfg = s.cfg := (busRead_transportOnly r n s).cfg
@[simp] theorem busRead_busAddr (r : RegNum) (n : Nat) (s : State) : (busRead r n s).2.busAddr = s.busAddr := (busRead_transportOnly r n s).busAddr
@[simp] theorem busRead_buf (r : RegNum) (n : Nat) (s : State) : (busRead r n s).2.buf = s.buf := (busRead_transportOnly r n s).buf
@[simp] theorem busRead_depth (r : RegNum) (n : Nat) (s : State) : (busRead r n s).2.depth = s.depth := (busRead_transportOnly r n s).depth
@[simp] theorem busRead_int1Flags (r : RegNum) (n : Nat) (s : State) : (busRead r n s).2.int1Flags = s.int1Flags := (busRead_transportOnly r n s).int1Flags
@[simp] theorem busRead_int2Flags (r : RegNum) (n : Nat) (s : State) : (busRead r n s).2.int2Flags = s.int2Flags := (busRead_transportOnly r n s).int2Flags
@[simp] theorem busRead_clickFlags (r : RegNum) (n : Nat) (s : State) : (busRead r n s).2.clickFlags = s.clickFlags := (busRead_transportOnly r n s).clickFlags
@[simp] theorem busRead_clickSeen (r : RegNum) (n : Nat) (s : State) : (busRead r n s).2.clickSeen = s.clickSeen := (busRead_transportOnly r n s).clickSeen
@[simp] theorem busRead_downLatch (r : RegNum) (n : Nat) (s : State) : (busRead r n s).2.downLatch = s.downLatch := (busRead_transportOnly r n s).downLatch
@[simp] theorem busRead_downStartMs (r : RegNum) (n : Nat) (s : State) : (busRead r n s).2.downStartMs = s.downStartMs := (busRead_transportOnly r n s).downStartMs
@[simp] theorem busRead_wakeState (r : RegNum) (n : Nat) (s : State) : (busRead r n s).2.wakeState = s.wakeState := (busRead_transportOnly r n s).wakeState
@[simp] theorem busRead_irqEn (r : RegNum) (n : Nat) (s : State) : (busRead r n s).2.irqEn = s.irqEn := (busRead_transportOnly r n s).irqEn
@[simp] theorem busRead_irqPending (r : RegNum) (n : Nat) (s : State) : (busRead r n s).2.irqPending = s.irqPending := (busRead_transportOnly r n s).irqPending
@[simp] theorem busRead_irqLine (r : RegNum) (n : Nat) (s : State) : (busRead r n s).2.irqLine = s.irqLine := (busRead_transportOnly r n s).irqLine
@[simp] theorem busRead_spinCount (r : RegNum) (n : Nat) (s : State) : (busRead r n s).2.spinCount = s.spinCount := (busRead_transportOnly r n s).spinCount
@[simp] theorem busRead_fastCount (r : RegNum) (n : Nat) (s : State) : (busRead r n s).2.fastCount = s.fastCount := (busRead_transportOnly r n s).fastCount
@[simp] theorem busRead_slowCount (r : RegNum) (n : Nat) (s : State) : (busRead r n s).2.slowCount = s.slowCount := (busRead_transportOnly r n s).slowCount
@[simp] theorem busRead_lastClickMs (r : RegNum) (n : Nat) (s : State) : (busRead r n s).2.lastClickMs = s.lastClickMs := (busRead_transportOnly r n s).lastClickMs
@[simp] theorem busRead_halted (r : RegNum) (n : Nat) (s : State) : (busRead r n s).2.halted = s.halted := (busRead_transportOnly r n s).halted
@[simp] theorem busRead_fatalComponent (r : RegNum) (n : Nat) (s : State) : (busRead r n s).2.fatalComponent = s.fatalComponent := (busRead_transportOnly r n s).fatalComponent
@[simp] theorem busRead_fatalCode (r : RegNum) (n : Nat) (s : State) : (busRead r n s).2.fatalCode = s.fatalCode := (busRead_transportOnly r n s).fatalCode
@[simp] theorem busRead_ctx (r : RegNum) (n : Nat) (s : State) : (busRead r n s).2.ctx = s.ctx := (busRead_transportOnly r n s).ctx
@[simp] theorem busRead_responses (r : RegNum) (n : Nat) (s : State) : (busRead r n s).2.responses = s.responses := (busRead_transportOnly r n s).responses
@[simp] theorem busRead_lineFeed (r : RegNum) (n : Nat) (s : State) : (busRead r n s).2.lineFeed = s.lineFeed := (busRead_transportOnly r n s).lineFeed
@[simp] theorem busRead_clockFeed (r : RegNum) (n : Nat) (s : State) : (busRead r n s).2.clockFeed = s.clockFeed := (busRead_transportOnly r n s).clockFeed
@[simp] theorem busRead_eventFeed (r : RegNum) (n : Nat) (s : State) : (busRead r n s).2.eventFeed = s.eventFeed := (busRead_transportOnly r n s).eventFeed

@[simp] theorem busWrite_cfg (r : RegNum) (v : Byte) (s : State) : (busWrite r v s).2.cfg = s.cfg := (busWrite_transportOnly r v s).cfg
@[simp] theorem busWrite_busAddr (r : RegNum) (v : Byte) (s : State) : (busWrite r v s).2.busAddr = s.busAddr := (busWrite_transportOnly r v s).busAddr
@[simp] theorem busWrite_buf (r : RegNum) (v : Byte) (s : State) : (busWrite r v s).2.buf = s.buf := (busWrite_transportOnly r v s).buf
@[simp] theorem busWrite_depth (r : RegNum) (v : Byte) (s : State) : (busWrite r v s).2.depth = s.depth := (busWrite_transportOnly r v s).depth
@[simp] theorem busWrite_int1Flags (r : RegNum) (v : Byte) (s : State) : (busWrite r v s).2.int1Flags = s.int1Flags := (busWrite_transportOnly r v s).int1Flags
@[simp] theorem busWrite_int2Flags (r : RegNum) (v : Byte) (s : State) : (busWrite r v s).2.int2Flags = s.int2Flags := (busWrite_transportOnly r v s).int2Flags
@[simp] theorem busWrite_clickFlags (r : RegNum) (v : Byte) (s : State) : (busWrite r v s).2.clickFlags = s.clickFlags := (busWrite_transportOnly r v s).clickFlags
@[simp] theorem busWrite_clickSeen (r : RegNum) (v : Byte) (s : State) : (busWrite r v s).2.clickSeen = s.clickSeen := (busWrite_transportOnly r v s).clickSeen
@[simp] theorem busWrite_downLatch (r : RegNum) (v : Byte) (s : State) : (busWrite r v s).2.downLatch = s.downLatch := (busWrite_transportOnly r v s).downLatch
@[simp] theorem busWrite_downStartMs (r : RegNum) (v : Byte) (s : State) : (busWrite r v s).2.downStartMs = s.downStartMs := (busWrite_transportOnly r v s).downStartMs
@[simp] theorem busWrite_wakeState (r : RegNum) (v : Byte) (s : State) : (busWrite r v s).2.wakeState = s.wakeState := (busWrite_transportOnly r v s).wakeState
@[simp] theorem busWrite_irqEn (r : RegNum) (v : Byte) (s : State) : (busWrite r v s).2.irqEn = s.irqEn := (busWrite_transportOnly r v s).irqEn
@[simp] theorem busWrite_irqPending (r : RegNum) (v : Byte) (s : State) : (busWrite r v s).2.irqPending = s.irqPending := (busWrite_transportOnly r v s).irqPending
@[simp] theorem busWrite_irqLine (r : RegNum) (v : Byte) (s : State) : (busWrite r v s).2.irqLine = s.irqLine := (busWrite_transportOnly r v s).irqLine
@[simp] theorem busWrite_spinCount (r : RegNum) (v : Byte) (s : State) : (busWrite r v s).2.spinCount = s.spinCount := (busWrite_transportOnly r v s).spinCount
@[simp] theorem busWrite_fastCount (r : RegNum) (v : Byte) (s : State) : (busWrite r v s).2.fastCount = s.fastCount := (busWrite_transportOnly r v s).fastCount
@[simp] theorem busWrite_slowCount (r : RegNum) (v : Byte) (s : State) : (busWrite r v s).2.slowCount = s.slowCount := (busWrite_transportOnly r v s).slowCount
@[simp] theorem busWrite_lastClickMs (r : RegNum) (v : Byte) (s : State) : (busWrite r v s).2.lastClickMs = s.lastClickMs := (busWrite_transportOnly r v s).lastClickMs
@[simp] theorem busWrite_halted (r : RegNum) (v : Byte) (s : State) : (busWrite r v s).2.halted = s.halted := (busWrite_transportOnly r v s).halted
@[simp] theorem busWrite_fatalComponent (r : RegNum) (v : Byte) (s : State) : (busWrite r v s).2.fatalComponent = s.fatalComponent := (busWrite_transportOnly r v s).fatalComponent
@[simp] theorem busWrite_fatalCode (r : RegNum) (v : Byte) (s : State) : (busWrite r v s).2.fatalCode = s.fatalCode := (busWrite_transportOnly r v s).fatalCode
@[simp] theorem busWrite_ctx (r : RegNum) (v : Byte) (s : State) : (busWrite r v s).2.ctx = s.ctx := (busWrite_transportOnly r v s).ctx
@[simp] theorem busWrite_responses (r : RegNum) (v : Byte) (s : State) : (busWrite r v s).2.responses = s.responses := (busWrite_transportOnly r v s).responses
@[simp] theorem busWrite_lineFeed (r : RegNum) (v : Byte) (s : State) : (busWrite r v s).2.lineFeed = s.lineFeed := (busWrite_transportOnly r v s).lineFeed
@[simp] theorem busWrite_clockFeed (r : RegNum) (v : Byte) (s : State) : (busWrite r v s).2.clockFeed = s.clockFeed := (busWrite_transportOnly r v s).clockFeed
@[simp] theorem busWrite_eventFeed (r : RegNum) (v : Byte) (s : State) : (busWrite r v s).2.eventFeed = s.eventFeed := (busWrite_transportOnly r v s).eventFeed

@[simp] theorem applySoft_cfg (l : WriteList) (s : State) : (applySoft l s).cfg = s.cfg := (applySoft_transportOnly l s).cfg
@[simp] theorem applySoft_busAddr (l : WriteList) (s : State) : (applySoft l s).busAddr = s.busAddr := (applySoft_transportOnly l s).busAddr
@[simp] theorem applySoft_buf (l : WriteList) (s : State) : (applySoft l s).buf = s.buf := (applySoft_transportOnly l s).buf
@[simp] theorem applySoft_depth (l : WriteList) (s : State) : (applySoft l s).depth = s.depth := (applySoft_transportOnly l s).depth
@[simp] theorem applySoft_int1Flags (l : WriteList) (s : State) : (applySoft l s).int1Flags = s.int1Flags := (applySoft_transportOnly l s).int1Flags
@[simp] theorem applySoft_int2Flags (l : WriteList) (s : State) : (applySoft l s).int2Flags = s.int2Flags := (applySoft_transportOnly l s).int2Flags
@[simp] theorem applySoft_clickFlags (l : WriteList) (s : State) : (applySoft l s).clickFlags = s.clickFlags := (applySoft_transportOnly l s).clickFlags
@[simp] theorem applySoft_clickSeen (l : WriteList) (s : State) : (applySoft l s).clickSeen = s.clickSeen := (applySoft_transportOnly l s).clickSeen
@[simp] theorem applySoft_downLatch (l : WriteList) (s : State) : (applySoft l s).downLatch = s.downLatch := (applySoft_transportOnly l s).downLatch
@[simp] theorem applySoft_downStartMs (l : WriteList) (s : State) : (applySoft l s).downStartMs = s.downStartMs := (applySoft_transportOnly l s).downStartMs
@[simp] theorem applySoft_wakeState (l : WriteList) (s : State) : (applySoft l s).wakeState = s.wakeState := (applySoft_transportOnly l s).wakeState
@[simp] theorem applySoft_irqEn (l : WriteList) (s : State) : (applySoft l s).irqEn = s.irqEn := (applySoft_transportOnly l s).irqEn
@[simp] theorem applySoft_irqPending (l : WriteList) (s : State) : (applySoft l s).irqPending = s.irqPending := (applySoft_transportOnly l s).irqPending
@[simp] theorem applySoft_irqLine (l : WriteList) (s : State) : (applySoft l s).irqLine = s.irqLine := (applySoft_transportOnly l s).irqLine
@[simp] theorem applySoft_spinCount (l : WriteList) (s : State) : (applySoft l s).spinCount = s.spinCount := (applySoft_transportOnly l s).spinCount
@[simp] theorem applySoft_fastCount (l : WriteList) (s : State) : (applySoft l s).fastCount = s.fastCount := (applySoft_transportOnly l s).fastCount
@[simp] theorem applySoft_slowCount (l : WriteList) (s : State) : (applySoft l s).slowCount = s.slowCount := (applySoft_transportOnly l s).slowCount
@[simp] theorem applySoft_lastClickMs (l : WriteList) (s : State) : (applySoft l s).lastClickMs = s.lastClickMs := (applySoft_transportOnly l s).lastClickMs
@[simp] theorem applySoft_halted (l : WriteList) (s : State) : (applySoft l s).halted = s.halted := (applySoft_transportOnly l s).halted
@[simp] theorem applySoft_fatalComponent (l : WriteList) (s : State) : (applySoft l s).fatalComponent = s.fatalComponent := (applySoft_transportOnly l s).fatalComponent
@[simp] theorem applySoft_fatalCode (l : WriteList) (s : State) : (applySoft l s).fatalCode = s.fatalCode := (applySoft_transportOnly l s).fatalCode
@[simp] theorem applySoft_ctx (l : WriteList) (s : State) : (applySoft l s).ctx = s.ctx := (applySoft_transportOnly l s).ctx
@[simp] theorem applySoft_responses (l : WriteList) (s : State) : (applySoft l s).responses = s.responses := (applySoft_transportOnly l s).responses
@[simp] theorem applySoft_lineFeed (l : WriteList) (s : State) : (applySoft l s).lineFeed = s.lineFeed := (applySoft_transportOnly l s).lineFeed
@[simp] theorem applySoft_clockFeed (l : WriteList) (s : State) : (applySoft l s).clockFeed = s.clockFeed := (applySoft_transportOnly l s).clockFeed
@[simp] theorem applySoft_eventFeed (l : WriteList) (s : State) : (applySoft l s).eventFeed = s.eventFeed := (applySoft_transportOnly l s).eventFeed

@[simp] theorem applyHard_cfg (l : WriteList) (s : State) : (applyHard l s).2.cfg = s.cfg := (applyHard_transportOnly l s).cfg
@[simp] theorem applyHard_busAddr (l : WriteList) (s : State) : (applyHard l s).2.busAddr = s.busAddr := (applyHard_transportOnly l s).busAddr
@[simp] theorem applyHard_buf (l : WriteList) (s : State) : (applyHard l s).2.buf = s.buf := (applyHard_transportOnly l s).buf
@[simp] theorem applyHard_depth (l : WriteList) (s : State) : (applyHard l s).2.depth = s.depth := (applyHard_transportOnly l s).depth
@[simp] theorem applyHard_int1Flags (l : WriteList) (s : State) : (applyHard l s).2.int1Flags = s.int1Flags := (applyHard_transportOnly l s).int1Flags
@[simp] theorem applyHard_int2Flags (l : WriteList) (s : State) : (applyHard l s).2.int2Flags = s.int2Flags := (applyHard_transportOnly l s).int2Flags
@[simp] theorem applyHard_clickFlags (l : WriteList) (s : State) : (applyHard l s).2.clickFlags = s.clickFlags := (applyHard_transportOnly l s).clickFlags
@[simp] theorem applyHard_clickSeen (l : WriteList) (s : State) : (applyHard l s).2.clickSeen = s.clickSeen := (applyHard_transportOnly l s).clickSeen
@[simp] theorem applyHard_downLatch (l : WriteList) (s : State) : (applyHard l s).2.downLatch = s.downLatch := (applyHard_transportOnly l s).downLatch
@[simp] theorem applyHard_downStartMs (l : WriteList) (s : State) : (applyHard l s).2.downStartMs = s.downStartMs := (applyHard_transportOnly l s).downStartMs
@[simp] theorem applyHard_wakeState (l : WriteList) (s : State) : (applyHard l s).2.wakeState = s.wakeState := (applyHard_transportOnly l s).wakeState
@[simp] theorem applyHard_irqEn (l : WriteList) (s : State) : (applyHard l s).2.irqEn = s.irqEn := (applyHard_transportOnly l s).irqEn
@[simp] theorem applyHard_irqPending (l : WriteList) (s : State) : (applyHard l s).2.irqPending = s.irqPending := (applyHard_transportOnly l s).irqPending
@[simp] theorem applyHard_irqLine (l : WriteList) (s : State) : (applyHard l s).2.irqLine = s.irqLine := (applyHard_transportOnly l s).irqLine
@[simp] theorem applyHard_spinCount (l : WriteList) (s : State) : (applyHard l s).2.spinCount = s.spinCount := (applyHard_transportOnly l s).spinCount
@[simp] theorem applyHard_fastCount (l : WriteList) (s : State) : (applyHard l s).2.fastCount = s.fastCount := (applyHard_transportOnly l s).fastCount
@[simp] theorem applyHard_slowCount (l : WriteList) (s : State) : (applyHard l s).2.slowCount = s.slowCount := (applyHard_transportOnly l s).slowCount
@[simp] theorem applyHard_lastClickMs (l : WriteList) (s : State) : (applyHard l s).2.lastClickMs = s.lastClickMs := (applyHard_transportOnly l s).lastClickMs
@[simp] theorem applyHard_halted (l : WriteList) (s : State) : (applyHard l s).2.halted = s.halted := (applyHard_transportOnly l s).halted
@[simp] theorem applyHard_fatalComponent (l : WriteList) (s : State) : (applyHard l s).2.fatalComponent = s.fatalComponent := (applyHard_transportOnly l s).fatalComponent
@[simp] theorem applyHard_fatalCode (l : WriteList) (s : State) : (applyHard l s).2.fatalCode = s.fatalCode := (applyHard_transportOnly l s).fatalCode
@[simp] theorem applyHard_ctx (l : WriteList) (s : State) : (applyHard l s).2.ctx = s.ctx := (applyHard_transportOnly l s).ctx
@[simp] theorem applyHard_responses (l : WriteList) (s : State) : (applyHard l s).2.responses = s.responses := (applyHard_transportOnly l s).responses
@[simp] theorem applyHard_lineFeed (l : WriteList) (s : State) : (applyHard l s).2.lineFeed = s.lineFeed := (applyHard_transportOnly l s).lineFeed
@[simp] theorem applyHard_clockFeed (l : WriteList) (s : State) : (applyHard l s).2.clockFeed = s.clockFeed := (applyHard_transportOnly l s).clockFeed
@[simp] theorem applyHard_eventFeed (l : WriteList) (s : State) : (applyHard l s).2.eventFeed = s.eventFeed := (applyHard_transportOnly l s).eventFeed

@[simp] theorem sampleLine_cfg (s : State) : (sampleLine s).cfg = s.cfg := (sampleLine_lineOnly s).cfg
@[simp] theorem sampleLine_busAddr (s : State) : (sampleLine s).busAddr = s.busAddr := (sampleLine_lineOnly s).busAddr
@[simp] theorem sampleLine_tphase (s : State) : (sampleLine s).tphase = s.tphase := (sampleLine_lineOnly s).tphase
@[simp] theorem sampleLine_tcount (s : State) : (sampleLine s).tcount = s.tcount := (sampleLine_lineOnly s).tcount
@[simp] theorem sampleLine_tidx (s : State) : (sampleLine s).tidx = s.tidx := (sampleLine_lineOnly s).tidx
@[simp] theorem sampleLine_rbuf (s : State) : (sampleLine s).rbuf = s.rbuf := (sampleLine_lineOnly s).rbuf
@[simp] theorem sampleLine_rlen (s : State) : (sampleLine s).rlen = s.rlen := (sampleLine_lineOnly s).rlen
@[simp] theorem sampleLine_buf (s : State) : (sampleLine s).buf = s.buf := (sampleLine_lineOnly s).buf
@[simp] theorem sampleLine_depth (s : State) : (sampleLine s).depth = s.depth := (sampleLine_lineOnly s).depth
@[simp] theorem sampleLine_int1Flags (s : State) : (sampleLine s).int1Flags = s.int1Flags := (sampleLine_lineOnly s).int1Flags
@[simp] theorem sampleLine_int2Flags (s : State) : (sampleLine s).int2Flags = s.int2Flags := (sampleLine_lineOnly s).int2Flags
@[simp] theorem sampleLine_clickFlags (s : State) : (sampleLine s).clickFlags = s.clickFlags := (sampleLine_lineOnly s).clickFlags
@[simp] theorem sampleLine_clickSeen (s : State) : (sampleLine s).clickSeen = s.clickSeen := (sampleLine_lineOnly s).clickSeen
@[simp] theorem sampleLine_downLatch (s : State) : (sampleLine s).downLatch = s.downLatch := (sampleLine_lineOnly s).downLatch
@[simp] theorem sampleLine_downStartMs (s : State) : (sampleLine s).downStartMs = s.downStartMs := (sampleLine_lineOnly s).downStartMs
@[simp] theorem sampleLine_wakeState (s : State) : (sampleLine s).wakeState = s.wakeState := (sampleLine_lineOnly s).wakeState
@[simp] theorem sampleLine_irqEn (s : State) : (sampleLine s).irqEn = s.irqEn := (sampleLine_lineOnly s).irqEn
@[simp] theorem sampleLine_spinCount (s : State) : (sampleLine s).spinCount = s.spinCount := (sampleLine_lineOnly s).spinCount
@[simp] theorem sampleLine_fastCount (s : State) : (sampleLine s).fastCount = s.fastCount := (sampleLine_lineOnly s).fastCount
@[simp] theorem sampleLine_slowCount (s : State) : (sampleLine s).slowCount = s.slowCount := (sampleLine_lineOnly s).slowCount
@[simp] theorem sampleLine_lastClickMs (s : State) : (sampleLine s).lastClickMs = s.lastClickMs := (sampleLine_lineOnly s).lastClickMs
@[simp] theorem sampleLine_halted (s : State) : (sampleLine s).halted = s.halted := (sampleLine_lineOnly s).halted
@[simp] theorem sampleLine_fatalComponent (s : State) : (sampleLine s).fatalComponent = s.fatalComponent := (sampleLine_lineOnly s).fatalComponent
@[simp] theorem sampleLine_fatalCode (s : State) : (sampleLine s).fatalCode = s.fatalCode := (sampleLine_lineOnly s).fatalCode
@[simp] theorem sampleLine_ctx (s : State) : (sampleLine s).ctx = s.ctx := (sampleLine_lineOnly s).ctx
@[simp] theorem sampleLine_responses (s : State) : (sampleLine s).responses = s.responses := (sampleLine_lineOnly s).responses
@[simp] theorem sampleLine_trace (s : State) : (sampleLine s).trace = s.trace := (sampleLine_lineOnly s).trace
@[simp] theorem sampleLine_busFeed (s : State) : (sampleLine s).busFeed = s.busFeed := (sampleLine_lineOnly s).busFeed
@[simp] theorem sampleLine_clockFeed (s : State) : (sampleLine s).clockFeed = s.clockFeed := (sampleLine_lineOnly s).clockFeed
@[simp] theorem sampleLine_eventFeed (s : State) : (sampleLine s).eventFeed = s.eventFeed := (sampleLine_lineOnly s).eventFeed

end Sys2Proof.Machine
end

