-- ==== Sys2Proof/Laws/Transport.lean ====
section
/-! SUPPORT. What the transport's shared operations do: the wait point (40_transport.md R124), and when a READ or a WRITE
completes and with what (R120, R121, R125, R126). -/

namespace Sys2Proof.Machine

/-! ## Answers ahead -/

theorem feedAt_skip {α : Type} (free : Nat → α) (f : Feed α) (n k : Nat) :
    feedAt free (feedSkip f n) k = feedAt free f (n + k) := by
  simp only [feedAt, feedSkip, Nat.add_assoc]

theorem feedSkip_skip {α : Type} (f : Feed α) (m n : Nat) : feedSkip (feedSkip f m) n = feedSkip f (m + n) := by
  simp only [feedSkip, Nat.add_assoc]

/-- The answers ahead of a state that has used `n` answers more. -/
theorem busAt_of_feed {s t : State} {n : Nat} (h : t.busFeed = feedSkip s.busFeed n) (k : Nat) :
    t.busAt k = s.busAt (n + k) := by
  simp only [State.busAt, h, feedAt_skip]

theorem busAt_congr {s t : State} (h : t.busFeed = s.busFeed) (k : Nat) : t.busAt k = s.busAt k := by
  simp only [State.busAt, h]

theorem completesAt_of_feed {s t : State} {n : Nat} (h : t.busFeed = feedSkip s.busFeed n) (hc : t.cfg = s.cfg) (k : Nat) :
    t.completesAt k ↔ s.completesAt (n + k) := by
  simp only [State.completesAt, busAt_of_feed h, hc]

theorem completesAt_congr {s t : State} (h : t.busFeed = s.busFeed) (hc : t.cfg = s.cfg) (k : Nat) :
    t.completesAt k ↔ s.completesAt k := by
  simp only [State.completesAt, busAt_congr h, hc]

/-! ## Wait points -/

theorem waitPoint_completes {s : State} (h : s.completesAt 0) :
    waitPoint s = (some (s.busAt 0), s.waited (s.busAt 0).wait) := by
  simp only [waitPoint, if_pos h]

theorem waitPoint_timeout {s : State} (h : ¬ s.completesAt 0) : waitPoint s = (none, s.waited s.cfg.busTimeout) := by
  simp only [waitPoint, if_neg h]

/-- Whatever the bus answers, a wait point uses one answer (R124). -/
@[simp] theorem waitPoint_busFeed (s : State) : (waitPoint s).2.busFeed = feedSkip s.busFeed 1 := by
  unfold waitPoint; split <;> rfl

@[simp] theorem waitPoint_trace (s : State) : (waitPoint s).2.trace = s.trace := by unfold waitPoint; split <;> rfl

@[simp] theorem waitPoint_rbuf (s : State) : (waitPoint s).2.rbuf = s.rbuf := by unfold waitPoint; split <;> rfl

@[simp] theorem waitPoint_rlen (s : State) : (waitPoint s).2.rlen = s.rlen := by unfold waitPoint; split <;> rfl

@[simp] theorem waitPoint_tidx (s : State) : (waitPoint s).2.tidx = s.tidx := by unfold waitPoint; split <;> rfl

@[simp] theorem waitPoint_tphase (s : State) : (waitPoint s).2.tphase = s.tphase := by unfold waitPoint; split <;> rfl

/-- The timeout counter never passes `BUS_TIMEOUT` (R22, R124). -/
theorem waitPoint_tcount_le (s : State) : (waitPoint s).2.tcount ≤ s.cfg.busTimeout := by
  unfold waitPoint; split
  · next h => exact Nat.le_of_lt h
  · exact Nat.le_refl _

/-! ## Parts of a transaction -/

theorem completesAt_atPhase (p : TPhase) (s : State) (k : Nat) : (s.atPhase p).completesAt k ↔ s.completesAt k :=
  completesAt_congr rfl rfl k

theorem condition_done (p : TPhase) (e : BusEvent) {s : State} (h : s.completesAt 0) :
    condition p e s = (true, ((s.atPhase p).waited (s.busAt 0).wait).emit e) := by
  unfold condition
  rw [waitPoint_completes ((completesAt_atPhase p s 0).2 h)]
  rfl

theorem condition_succeeds (p : TPhase) (e : BusEvent) (s : State) : (condition p e s).1 = true ↔ s.completesAt 0 := by
  by_cases h : s.completesAt 0
  · simp [condition_done p e h, h]
  · unfold condition
    rw [waitPoint_timeout (mt (completesAt_atPhase p s 0).1 h)]
    simp [h]

theorem send_done (p : TPhase) (b : Byte) {s : State} (h : s.completesAt 0) :
    send p b s = ((s.busAt 0).ack, ((s.atPhase p).waited (s.busAt 0).wait).emit (.sent b (s.busAt 0).ack)) := by
  unfold send
  rw [waitPoint_completes ((completesAt_atPhase p s 0).2 h)]
  rfl

theorem send_succeeds (p : TPhase) (b : Byte) (s : State) :
    (send p b s).1 = true ↔ s.completesAt 0 ∧ (s.busAt 0).ack = true := by
  by_cases h : s.completesAt 0
  · simp [send_done p b h, h]
  · unfold send
    rw [waitPoint_timeout (mt (completesAt_atPhase p s 0).1 h)]
    simp [h]

/-- The STOP of a transaction goes well exactly when its wait point completes; its event is in the trace either way, and it uses
one answer (R124, R125). -/
theorem stopBus_done {s : State} (h : s.completesAt 0) :
    stopBus s = (true, ((s.atPhase .stop).waited (s.busAt 0).wait).emit .stop) := by
  unfold stopBus
  rw [waitPoint_completes ((completesAt_atPhase .stop s 0).2 h)]
  rfl

theorem stopBus_timeout {s : State} (h : ¬ s.completesAt 0) :
    stopBus s = (false, ((s.atPhase .stop).waited s.cfg.busTimeout).emit .stop) := by
  unfold stopBus
  rw [waitPoint_timeout (mt (completesAt_atPhase .stop s 0).1 h)]
  rfl

theorem stopBus_succeeds (s : State) : (stopBus s).1 = true ↔ s.completesAt 0 := by
  by_cases h : s.completesAt 0
  · simp [stopBus_done h, h]
  · simp [stopBus_timeout h, h]

@[simp] theorem stopBus_trace (s : State) : (stopBus s).2.trace = s.trace ++ [.stop] := by simp [stopBus]

@[simp] theorem stopBus_busFeed (s : State) : (stopBus s).2.busFeed = feedSkip s.busFeed 1 := by simp [stopBus]

@[simp] theorem stopBus_rbuf (s : State) : (stopBus s).2.rbuf = s.rbuf := by simp [stopBus]

@[simp] theorem stopBus_rlen (s : State) : (stopBus s).2.rlen = s.rlen := by simp [stopBus]

/-! ## The data bytes -/

/-- The bytes answered at the next `k` wait points. -/
def State.nextBytes (s : State) (k : Nat) : List Byte := (List.range k).map fun j => (s.busAt j).byte

@[simp] theorem State.nextBytes_length (s : State) (k : Nat) : (s.nextBytes k).length = k := by simp [State.nextBytes]

theorem State.nextBytes_succ (s : State) (k : Nat) {t : State} (h : t.busFeed = feedSkip s.busFeed 1) :
    s.nextBytes (k + 1) = (s.busAt 0).byte :: t.nextBytes k := by
  simp only [State.nextBytes, List.range_succ_eq_map, List.map_cons, List.map_map, List.cons.injEq, true_and]
  refine List.map_congr_left fun j _ => ?_
  simp only [Function.comp_apply, busAt_of_feed h, Nat.add_comm 1 j]

/-- `v` with consecutive entries replaced, from index `i` on. -/
def overlayFrom (i : Nat) : List Byte → Vector Byte 255 → Vector Byte 255
  | [], v => v
  | b :: rest, v => overlayFrom (i + 1) rest (v.setIfInBounds i b)

theorem overlayFrom_get (bytes : List Byte) (i : Nat) (v : Vector Byte 255) (j : Nat) (hj : j < 255) :
    (overlayFrom i bytes v)[j] = if i ≤ j then bytes.getD (j - i) v[j] else v[j] := by
  induction bytes generalizing i v with
  | nil => simp [overlayFrom]
  | cons b rest ih =>
    simp only [overlayFrom, ih, Vector.getElem_setIfInBounds]
    by_cases h1 : i = j
    · subst h1; simp
    · by_cases h2 : i ≤ j
      · have h3 : j - i = (j - (i + 1)) + 1 := by omega
        have h4 : i + 1 ≤ j := by omega
        rw [if_pos h4, if_pos h2, h3, if_neg h1]
        simp only [List.getD_cons_succ]
      · have h4 : ¬ i + 1 ≤ j := by omega
        rw [if_neg h4, if_neg h2, if_neg h1]

theorem overlayFrom_zero (bytes : List Byte) (v : Vector Byte 255) : overlayFrom 0 bytes v = overlay v bytes := by
  ext j hj
  simp [overlayFrom_get, overlay]

theorem dataTrace_cons (b : Byte) (rest : List Byte) :
    dataTrace (b :: rest) = .received b (rest.length != 0) :: dataTrace rest := by
  cases rest <;> rfl

theorem storeIndex_succ (x : BitVec 8) (k : Nat) (h : x.toNat + (k + 1) ≤ 255) : (x + 1).toNat = x.toNat + 1 := by
  rw [BitVec.toNat_add]; simp; omega

/-- The timeout counter after `k` completed wait points. -/
def State.lastWait (s : State) (k : Nat) : Nat := if k = 0 then s.tcount else (s.busAt (k - 1)).wait

/-- `k` data bytes that all arrive: stored in order, traced, one answer each (R120). -/
theorem receiveBytes_done (k : Nat) (s : State) (h : ∀ j < k, s.completesAt j) (hk : s.tidx.toNat + k ≤ 255) :
    receiveBytes k s = (true, { s with
      tcount := s.lastWait k
      tidx := s.tidx + BitVec.ofNat 8 k
      rbuf := overlayFrom s.tidx.toNat (s.nextBytes k) s.rbuf
      trace := s.trace ++ dataTrace (s.nextBytes k)
      busFeed := feedSkip s.busFeed k }) := by
  induction k generalizing s with
  | zero => simp [receiveBytes, State.lastWait, State.nextBytes, overlayFrom, dataTrace, feedSkip]
  | succ k ih =>
    have h0 := waitPoint_completes (h 0 (Nat.succ_pos k))
    let t : State := ((s.waited (s.busAt 0).wait).emit (.received (s.busAt 0).byte (k != 0))).storeByte (s.busAt 0).byte
    have hf : t.busFeed = feedSkip s.busFeed 1 := rfl
    have ht : receiveBytes (k + 1) s = receiveBytes k t := by
      conv_lhs => unfold receiveBytes
      rw [h0]
    have hti : t.tidx.toNat = s.tidx.toNat + 1 := storeIndex_succ s.tidx k hk
    rw [ht, ih t (fun j hj => (completesAt_of_feed hf rfl j).2 (by rw [Nat.add_comm]; exact h _ (by omega))) (by omega)]
    have hw : t.lastWait k = s.lastWait (k + 1) := by
      unfold State.lastWait
      by_cases hk0 : k = 0
      · subst hk0; rfl
      · rw [if_neg hk0, if_neg (Nat.succ_ne_zero k), busAt_of_feed hf, show 1 + (k - 1) = k + 1 - 1 by omega]
    have hi : t.tidx + BitVec.ofNat 8 k = s.tidx + BitVec.ofNat 8 (k + 1) := by
      show s.tidx + 1 + _ = _
      rw [BitVec.add_assoc]
      congr 1
      apply BitVec.eq_of_toNat_eq
      simp [BitVec.toNat_add]
      omega
    rw [hw, hi, hti, State.nextBytes_succ s k hf, dataTrace_cons, hf, feedSkip_skip, Nat.add_comm 1 k]
    simp [t, overlayFrom, State.storeByte, State.emit, State.waited]

/-- All the data bytes arrive exactly when every one of their wait points completes. -/
theorem receiveBytes_succeeds (k : Nat) (s : State) : (receiveBytes k s).1 = true ↔ ∀ j < k, s.completesAt j := by
  induction k generalizing s with
  | zero => simp [receiveBytes]
  | succ k ih =>
    by_cases h : s.completesAt 0
    · have h0 := waitPoint_completes h
      unfold receiveBytes
      rw [h0]
      dsimp only
      rw [ih]
      have hf : ((State.emit (.received (s.busAt 0).byte (k != 0)) (s.waited (s.busAt 0).wait)).storeByte
          (s.busAt 0).byte).busFeed = feedSkip s.busFeed 1 := rfl
      constructor
      · intro hj j hjk
        rcases j with _ | j
        · exact h
        · have := (completesAt_of_feed hf rfl j).1 (hj j (by omega))
          rwa [Nat.add_comm] at this
      · intro hj j hjk
        exact (completesAt_of_feed hf rfl j).2 (by rw [Nat.add_comm]; exact hj _ (by omega))
    · unfold receiveBytes
      rw [waitPoint_timeout h]
      simp only [Bool.false_eq_true, false_iff, not_forall]
      exact ⟨0, Nat.succ_pos k, h⟩

/-- When all data bytes arrive, one answer each was used. -/
theorem receiveBytes_feed (k : Nat) (s : State) (h : (receiveBytes k s).1 = true) :
    (receiveBytes k s).2.busFeed = feedSkip s.busFeed k := by
  induction k generalizing s with
  | zero => simp [receiveBytes, feedSkip]
  | succ k ih =>
    have hc := (receiveBytes_succeeds (k + 1) s).1 h 0 (Nat.succ_pos k)
    unfold receiveBytes at h ⊢
    rw [waitPoint_completes hc] at h ⊢
    dsimp only at h ⊢
    rw [ih _ h]
    simp [feedSkip_skip, Nat.add_comm]

end Sys2Proof.Machine
end

