-- ==== Sys2Proof/Laws/Transactions.lean ====
section
/-! SUPPORT. The whole READ, WRITE and write lists: exactly when they complete, and the state each leaves (40_transport.md R120,
R121, R125, R126; 41_device_config.md R133). -/

namespace Sys2Proof.Machine

theorem runParts_cons (f : Tx) (fs : List Tx) (s : State) :
    runParts (f :: fs) s = if (f s).1 then runParts fs (f s).2 else (false, (f s).2) := rfl

theorem runParts_cons_ok {f : Tx} {fs : List Tx} {s t : State} (h : f s = (true, t)) :
    runParts (f :: fs) s = runParts fs t := by rw [runParts_cons, h]; rfl

theorem runParts_cons_succeeds (f : Tx) (fs : List Tx) (s : State) :
    (runParts (f :: fs) s).1 = true ↔ (f s).1 = true ∧ (runParts fs (f s).2).1 = true := by
  rw [runParts_cons]; split <;> simp_all

/-- The parts in order and then one more. -/
theorem runParts_append_one (fs : List Tx) (f : Tx) (s : State) :
    (runParts (fs ++ [f]) s).1 = true ↔ (runParts fs s).1 = true ∧ (f (runParts fs s).2).1 = true := by
  induction fs generalizing s with
  | nil => rw [List.nil_append, runParts_cons]; split <;> simp_all [runParts]
  | cons g fs ih =>
    rw [List.cons_append, runParts_cons, runParts_cons]
    split
    · exact ih _
    · simp

theorem runParts_nil_succeeds (s : State) : (runParts [] s).1 = true ↔ True := by simp [runParts]

/-- A transaction goes well exactly when its START, its parts and its STOP do, in this order. -/
theorem transaction_succeeds (parts : List Tx) (s : State) :
    (transaction parts s).1 = true ↔ (condition .start .start s).1 = true ∧
      (runParts (parts ++ [stopBus]) (condition .start .start s).2).1 = true := by
  unfold transaction; dsimp only
  rw [runParts_append_one]
  split
  · next h => split <;> simp_all
  · next h => simp_all

/-- A part that succeeds leaves the parameters alone and uses `m` answers. -/
def Tx.Uses (f : Tx) (m : Nat) : Prop := ∀ s, (f s).1 = true → (f s).2.busFeed = feedSkip s.busFeed m

theorem condition_uses (p : TPhase) (e : BusEvent) : Tx.Uses (condition p e) 1 := fun s h => by
  rw [condition_done p e ((condition_succeeds p e s).1 h)]; rfl

theorem send_uses (p : TPhase) (b : Byte) : Tx.Uses (send p b) 1 := fun s h => by
  rw [send_done p b ((send_succeeds p b s).1 h).1]; rfl

theorem stopBus_uses : Tx.Uses stopBus 1 := fun s _ => stopBus_busFeed s

theorem receiveAll_uses (n : Nat) : Tx.Uses (receiveAll n) n := fun _ h => receiveBytes_feed n _ h

theorem receiveAll_succeeds (n : Nat) (s : State) : (receiveAll n s).1 = true ↔ ∀ j < n, s.completesAt j :=
  (receiveBytes_succeeds n _).trans (forall₂_congr fun j _ => completesAt_congr rfl rfl j)

/-- One more part: what it needs stands at offset `k`, what the rest needs at offset `k + m`. -/
theorem runParts_step {f : Tx} {fs : List Tx} {m : Nat} (hl : f.Local) (hu : f.Uses m) {s t : State} {k : Nat}
    (hf : t.busFeed = feedSkip s.busFeed k) (hc : t.cfg = s.cfg) {C : Prop} (h1 : (f t).1 = true ↔ C) {D : Prop}
    (h2 : ∀ u : State, u.busFeed = feedSkip s.busFeed (k + m) → u.cfg = s.cfg → ((runParts fs u).1 = true ↔ D)) :
    (runParts (f :: fs) t).1 = true ↔ C ∧ D := by
  rw [runParts_cons_succeeds, h1]
  refine and_congr_right fun hC => h2 _ ?_ ((hl t).cfg.trans hc)
  rw [hu t (h1.2 hC), hf, feedSkip_skip]

theorem condition_at (p : TPhase) (e : BusEvent) {s t : State} {k : Nat} (hf : t.busFeed = feedSkip s.busFeed k)
    (hc : t.cfg = s.cfg) : (condition p e t).1 = true ↔ s.completesAt k := by
  rw [condition_succeeds, completesAt_of_feed hf hc, Nat.add_zero]

theorem stopBus_at {s t : State} {k : Nat} (hf : t.busFeed = feedSkip s.busFeed k) (hc : t.cfg = s.cfg) :
    (stopBus t).1 = true ↔ s.completesAt k := by
  rw [stopBus_succeeds, completesAt_of_feed hf hc, Nat.add_zero]

theorem send_at (p : TPhase) (b : Byte) {s t : State} {k : Nat} (hf : t.busFeed = feedSkip s.busFeed k)
    (hc : t.cfg = s.cfg) : (send p b t).1 = true ↔ s.completesAt k ∧ (s.busAt k).ack = true := by
  rw [send_succeeds, completesAt_of_feed hf hc, busAt_of_feed hf, Nat.add_zero]

theorem receiveAll_at (n : Nat) {s t : State} {k : Nat} (hf : t.busFeed = feedSkip s.busFeed k)
    (hc : t.cfg = s.cfg) : (receiveAll n t).1 = true ↔ ∀ j < n, s.completesAt (k + j) := by
  rw [receiveAll_succeeds]; exact forall₂_congr fun j _ => completesAt_of_feed hf hc j

/-- A READ's transaction goes well exactly when all its wait points complete and its sends are acknowledged. -/
theorem readTransaction_succeeds (p : Params) (a : BusAddr) (r : RegNum) (n : Nat) (s : State) :
    (transaction (readParts p a r n) s).1 = true ↔ s.ReadAcked 0 n := by
  rw [transaction_succeeds, condition_succeeds]
  have key : s.completesAt 0 → ((runParts (readParts p a r n ++ [stopBus]) (condition .start .start s).2).1 = true ↔
      ((s.completesAt 1 ∧ (s.busAt 1).ack = true) ∧ (s.completesAt 2 ∧ (s.busAt 2).ack = true) ∧ s.completesAt 3 ∧
        (s.completesAt 4 ∧ (s.busAt 4).ack = true) ∧ (∀ j < n, s.completesAt (5 + j)) ∧ s.completesAt (5 + n) ∧ True)) := by
    intro h0
    refine runParts_step (k := 1) (send_local _ _) (send_uses _ _) (condition_uses _ _ s ((condition_succeeds _ _ s).2 h0))
      (condition_local _ _ s).cfg (send_at _ _ (condition_uses _ _ s ((condition_succeeds _ _ s).2 h0))
      (condition_local _ _ s).cfg) fun u hf hc => ?_
    refine runParts_step (send_local _ _) (send_uses _ _) hf hc (send_at _ _ hf hc) fun u hf hc => ?_
    refine runParts_step (condition_local _ _) (condition_uses _ _) hf hc (condition_at _ _ hf hc) fun u hf hc => ?_
    refine runParts_step (send_local _ _) (send_uses _ _) hf hc (send_at _ _ hf hc) fun u hf hc => ?_
    refine runParts_step (receiveAll_local _) (receiveAll_uses _) hf hc (receiveAll_at _ hf hc) fun u hf hc => ?_
    refine runParts_step stopBus_local stopBus_uses hf hc (stopBus_at hf hc) fun u hf hc => ?_
    exact runParts_nil_succeeds u
  constructor
  · rintro ⟨h0, h⟩
    obtain ⟨⟨c1, a1⟩, ⟨c2, a2⟩, c3, ⟨c4, a4⟩, cd, cs, -⟩ := (key h0).1 h
    refine ⟨fun j hj => ?_, by simpa using a1, by simpa using a2, by simpa using a4⟩
    rw [Nat.zero_add]
    match j, hj with
    | 0, _ => exact h0
    | 1, _ => exact c1
    | 2, _ => exact c2
    | 3, _ => exact c3
    | 4, _ => exact c4
    | j + 5, hj =>
      by_cases hjn : j < n
      · rw [Nat.add_comm]; exact cd j hjn
      · rw [show j + 5 = 5 + n by omega]; exact cs
  · rintro ⟨hc, a1, a2, a4⟩
    have hc' : ∀ j < n + 6, s.completesAt j := fun j hj => by simpa using hc j hj
    refine ⟨hc' 0 (by omega), (key (hc' 0 (by omega))).2 ⟨⟨hc' 1 (by omega), by simpa using a1⟩, ⟨hc' 2 (by omega), by simpa using a2⟩,
      hc' 3 (by omega), ⟨hc' 4 (by omega), by simpa using a4⟩, fun j hj => hc' _ (by omega), hc' _ (by omega), trivial⟩⟩

/-- A WRITE's transaction goes well exactly when all its wait points complete and its sends are acknowledged. -/
theorem writeTransaction_succeeds (a : BusAddr) (r : RegNum) (v : Byte) (s : State) :
    (transaction (writeParts a r v) s).1 = true ↔ s.WriteAcked 0 := by
  rw [transaction_succeeds, condition_succeeds]
  have key : s.completesAt 0 → ((runParts (writeParts a r v ++ [stopBus]) (condition .start .start s).2).1 = true ↔
      ((s.completesAt 1 ∧ (s.busAt 1).ack = true) ∧ (s.completesAt 2 ∧ (s.busAt 2).ack = true) ∧
        (s.completesAt 3 ∧ (s.busAt 3).ack = true) ∧ s.completesAt 4 ∧ True)) := by
    intro h0
    refine runParts_step (k := 1) (send_local _ _) (send_uses _ _) (condition_uses _ _ s ((condition_succeeds _ _ s).2 h0))
      (condition_local _ _ s).cfg (send_at _ _ (condition_uses _ _ s ((condition_succeeds _ _ s).2 h0))
      (condition_local _ _ s).cfg) fun u hf hc => ?_
    refine runParts_step (send_local _ _) (send_uses _ _) hf hc (send_at _ _ hf hc) fun u hf hc => ?_
    refine runParts_step (send_local _ _) (send_uses _ _) hf hc (send_at _ _ hf hc) fun u hf hc => ?_
    refine runParts_step stopBus_local stopBus_uses hf hc (stopBus_at hf hc) fun u hf hc => ?_
    exact runParts_nil_succeeds u
  constructor
  · rintro ⟨h0, h⟩
    obtain ⟨⟨c1, a1⟩, ⟨c2, a2⟩, ⟨c3, a3⟩, c4, -⟩ := (key h0).1 h
    refine ⟨fun j hj => ?_, by simpa using a1, by simpa using a2, by simpa using a3⟩
    rw [Nat.zero_add]
    match j, hj with
    | 0, _ => exact h0
    | 1, _ => exact c1
    | 2, _ => exact c2
    | 3, _ => exact c3
    | 4, _ => exact c4
  · rintro ⟨hc, a1, a2, a3⟩
    have hc' : ∀ j < 5, s.completesAt j := fun j hj => by simpa using hc j hj
    exact ⟨hc' 0 (by omega), (key (hc' 0 (by omega))).2 ⟨⟨hc' 1 (by omega), by simpa using a1⟩, ⟨hc' 2 (by omega), by simpa using a2⟩,
      ⟨hc' 3 (by omega), by simpa using a3⟩, hc' _ (by omega), trivial⟩⟩

/-- `MemRead` delivers exactly when the transaction is acknowledged throughout (R120, R126). -/
theorem busRead_isSome (r : RegNum) (n : Nat) (s : State) : (busRead r n s).1.isSome = true ↔ s.ReadAcked 0 n := by
  rw [← readTransaction_succeeds s.cfg s.busAddr r n s]
  unfold busRead; dsimp only
  split <;> simp_all

theorem busRead_none (r : RegNum) (n : Nat) (s : State) : (busRead r n s).1 = none ↔ ¬ s.ReadAcked 0 n := by
  rw [← busRead_isSome r n s]; cases (busRead r n s).1 <;> simp

/-- A READ that fails leaves no result and an idle transport (R125, R126). -/
theorem busRead_failed {r : RegNum} {n : Nat} {s : State} (h : ¬ s.ReadAcked 0 n) :
    (busRead r n s).1 = none ∧ (busRead r n s).2.rlen = 0 ∧ (busRead r n s).2.tidx = 0 ∧
      (busRead r n s).2.tphase = .idle := by
  have ht := mt (readTransaction_succeeds s.cfg s.busAddr r n s).1 h
  refine ⟨(busRead_none r n s).2 h, ?_⟩
  unfold busRead; dsimp only
  rw [if_neg ht]
  refine ⟨rfl, ?_⟩
  unfold transaction at ht ⊢
  dsimp only at ht ⊢
  split
  · next h1 =>
    rw [if_pos h1] at ht
    split
    · next h2 => simp_all
    · exact ⟨rfl, rfl⟩
  · exact ⟨rfl, rfl⟩

/-- `MemWrite` succeeds exactly when the transaction is acknowledged throughout (R121). -/
theorem busWrite_succeeds (r : RegNum) (v : Byte) (s : State) : (busWrite r v s).1 = true ↔ s.WriteAcked 0 :=
  writeTransaction_succeeds s.busAddr r v s

/-- Whatever the bus does, the transport is idle after a transaction (10_state.md R21). -/
theorem transaction_tphase (parts : List Tx) (s : State) : (transaction parts s).2.tphase = .idle := by
  unfold transaction; dsimp only
  split
  · split <;> rfl
  · rfl

@[simp] theorem busRead_tphase (r : RegNum) (n : Nat) (s : State) : (busRead r n s).2.tphase = .idle := by
  have h := transaction_tphase (readParts s.cfg s.busAddr r n) s
  unfold busRead; dsimp only
  split <;> exact h

@[simp] theorem busWrite_tphase (r : RegNum) (v : Byte) (s : State) : (busWrite r v s).2.tphase = .idle :=
  transaction_tphase _ s

/-! ## Transactions that complete -/

/-- `s` in the middle of a transaction: `k` answers used, `l` on the bus so far. -/
def State.mid (s : State) (p : TPhase) (w : Nat) (l : List BusEvent) (k : Nat) : State :=
  { s with tphase := p, tcount := w, trace := s.trace ++ l, busFeed := feedSkip s.busFeed k }

theorem mid_feed (s : State) (p : TPhase) (w : Nat) (l : List BusEvent) (k : Nat) :
    (s.mid p w l k).busFeed = feedSkip s.busFeed k := rfl

theorem start_mid {s : State} (h : s.completesAt 0) :
    condition .start .start s = (true, s.mid .start (s.busAt 0).wait [.start] 1) := condition_done _ _ h

theorem condition_mid {s : State} {q : TPhase} {w k : Nat} {l : List BusEvent} (p : TPhase) (e : BusEvent)
    (h : s.completesAt k) :
    condition p e (s.mid q w l k) = (true, s.mid p (s.busAt k).wait (l ++ [e]) (k + 1)) := by
  rw [condition_done p e ((completesAt_of_feed (mid_feed s q w l k) rfl 0).2 h), busAt_of_feed (mid_feed s q w l k)]
  simp [State.mid, State.atPhase, State.waited, State.emit, feedSkip_skip]

theorem send_mid {s : State} {q : TPhase} {w k : Nat} {l : List BusEvent} (p : TPhase) (b : Byte)
    (h : s.completesAt k) (ha : (s.busAt k).ack = true) :
    send p b (s.mid q w l k) = (true, s.mid p (s.busAt k).wait (l ++ [.sent b true]) (k + 1)) := by
  rw [send_done p b ((completesAt_of_feed (mid_feed s q w l k) rfl 0).2 h), busAt_of_feed (mid_feed s q w l k)]
  simp [State.mid, State.atPhase, State.waited, State.emit, feedSkip_skip, ha]

/-- The answers of a READ are the bytes of the wait points after its first five. -/
theorem answers_length (s : State) (k n : Nat) : (s.answers k n).length = n := by simp [State.answers]

/-- The data bytes of a READ that all arrive. -/
theorem receiveAll_mid {s : State} {q : TPhase} {w : Nat} {l : List BusEvent} (n : Nat) (hn : n ≤ 255)
    (h : ∀ j < n, s.completesAt (5 + j)) :
    ∃ w', receiveAll n (s.mid q w l 5) = (true, { s with
      tidx := BitVec.ofNat 8 n
      rbuf := overlay s.rbuf (s.answers 0 n) }.mid .rdata w' (l ++ dataTrace (s.answers 0 n)) (n + 5)) := by
  obtain ⟨u, hu⟩ : ∃ u : State, u = { s.mid q w l 5 with tphase := .rdata, tidx := 0 } := ⟨_, rfl⟩
  have hf : u.busFeed = feedSkip s.busFeed 5 := by rw [hu]; rfl
  have hc : u.cfg = s.cfg := by rw [hu]; rfl
  have ht : u.tidx = 0 := by rw [hu]
  have hr : u.rbuf = s.rbuf := by rw [hu]; rfl
  have hl : u.trace = s.trace ++ l := by rw [hu]; rfl
  have hd := receiveBytes_done n u (fun j hj => (completesAt_of_feed hf hc j).2 (h j hj)) (by rw [ht]; simpa using hn)
  have hb : u.nextBytes n = s.answers 0 n := by simp only [State.nextBytes, State.answers, busAt_of_feed hf, Nat.zero_add]
  refine ⟨u.lastWait n, ?_⟩
  show receiveBytes n { s.mid q w l 5 with tphase := .rdata, tidx := 0 } = _
  rw [← hu, hd, hb, ht, hr, hl, hf, feedSkip_skip]
  have h0 : overlayFrom (0 : BitVec 8).toNat (s.answers 0 n) s.rbuf = overlay s.rbuf (s.answers 0 n) := overlayFrom_zero _ _
  have hz : (0 : BitVec 8) + BitVec.ofNat 8 n = BitVec.ofNat 8 n := BitVec.zero_add _
  rw [h0, hz, hu]
  simp [State.mid, Nat.add_comm 5 n]

theorem stopBus_mid {s : State} {q : TPhase} {w k : Nat} {l : List BusEvent} (h : s.completesAt k) :
    stopBus (s.mid q w l k) = (true, s.mid .stop (s.busAt k).wait (l ++ [.stop]) (k + 1)) := by
  rw [stopBus_done ((completesAt_of_feed (mid_feed s q w l k) rfl 0).2 h), busAt_of_feed (mid_feed s q w l k)]
  simp [State.mid, State.atPhase, State.waited, State.emit, feedSkip_skip]

theorem transaction_done {parts : List Tx} {s u v : State} (h : s.completesAt 0)
    (hr : runParts parts (s.mid .start (s.busAt 0).wait [.start] 1) = (true, u)) (hs : stopBus u = (true, v)) :
    transaction parts s = (true, v.atPhase .idle) := by
  unfold transaction; rw [start_mid h]; simp only [hr, hs, if_true, Bool.and_self]

theorem take_overlay (old : Vector Byte 255) (bytes : List Byte) (h : bytes.length ≤ 255) :
    (overlay old bytes).toList.take bytes.length = bytes := by
  apply List.ext_getElem
  · simp [h]
  · intro i h1 h2
    simp only [List.getElem_take, Vector.getElem_toList, overlay, Vector.getElem_ofFn]
    rw [List.getD_eq_getElem]

/-- A READ that is acknowledged throughout: its bytes, its trace, and all it leaves (R120, R128). -/
theorem busRead_done (r : RegNum) (n : Nat) (s : State) (hn : n ≤ 255) (h : s.ReadAcked 0 n) :
    busRead r n s = (some (s.answers 0 n), { s with
      tphase := .idle
      tcount := (s.busAt (n + 5)).wait
      tidx := BitVec.ofNat 8 n
      rbuf := overlay s.rbuf (s.answers 0 n)
      rlen := BitVec.ofNat 8 n
      trace := s.trace ++ readTrace s.cfg s.busAddr r (s.answers 0 n)
      busFeed := feedSkip s.busFeed (n + 6) }) := by
  obtain ⟨hc, a1, a2, a4⟩ := h
  have hc' : ∀ j < n + 6, s.completesAt j := fun j hj => by simpa using hc j hj
  rw [Nat.zero_add] at a1 a2 a4
  obtain ⟨w, e5⟩ := receiveAll_mid (s := s) (q := .addrR) (w := (s.busAt 4).wait)
    (l := [.start, .sent (addressByte s.busAddr false) true, .sent (readRegisterByte s.cfg r n) true, .restart,
      .sent (addressByte s.busAddr true) true]) n hn (fun j hj => hc' _ (by omega))
  have er : runParts (readParts s.cfg s.busAddr r n) (s.mid .start (s.busAt 0).wait [.start] 1) = (true, { s with
      tidx := BitVec.ofNat 8 n
      rbuf := overlay s.rbuf (s.answers 0 n) }.mid .rdata w (([.start, .sent (addressByte s.busAddr false) true,
        .sent (readRegisterByte s.cfg r n) true, .restart, .sent (addressByte s.busAddr true) true] : List BusEvent) ++
          dataTrace (s.answers 0 n)) (n + 5)) := by
    unfold readParts
    rw [runParts_cons_ok (send_mid _ _ (hc' 1 (by omega)) a1), runParts_cons_ok (send_mid _ _ (hc' 2 (by omega)) a2),
      runParts_cons_ok (condition_mid _ _ (hc' 3 (by omega))), runParts_cons_ok (send_mid _ _ (hc' 4 (by omega)) a4)]
    simp only [List.cons_append, List.nil_append]
    rw [runParts_cons_ok e5]
    rfl
  unfold busRead
  rw [transaction_done (hc' 0 (by omega)) er (stopBus_mid (by exact hc' (n + 5) (by omega)))]
  simp only [if_true]
  have hk := take_overlay s.rbuf (s.answers 0 n) (by simpa [answers_length] using hn)
  rw [answers_length] at hk
  refine Prod.ext (congrArg some hk) ?_
  simp only [readTrace, answers_length]
  rfl

/-- A WRITE that is acknowledged throughout: its trace, and all it leaves (R121, R128). -/
theorem busWrite_done (r : RegNum) (v : Byte) (s : State) (h : s.WriteAcked 0) :
    busWrite r v s = (true, { s with
      tphase := .idle
      tcount := (s.busAt 4).wait
      trace := s.trace ++ writeTrace s.busAddr r v
      busFeed := feedSkip s.busFeed 5 }) := by
  obtain ⟨hc, a1, a2, a3⟩ := h
  have hc' : ∀ j < 5, s.completesAt j := fun j hj => by simpa using hc j hj
  rw [Nat.zero_add] at a1 a2 a3
  have er : runParts (writeParts s.busAddr r v) (s.mid .start (s.busAt 0).wait [.start] 1) =
      (true, s.mid .wdata (s.busAt 3).wait [.start, .sent (addressByte s.busAddr false) true,
        .sent (writeRegisterByte r) true, .sent v true] 4) := by
    unfold writeParts
    rw [runParts_cons_ok (send_mid _ _ (hc' 1 (by omega)) a1), runParts_cons_ok (send_mid _ _ (hc' 2 (by omega)) a2),
      runParts_cons_ok (send_mid _ _ (hc' 3 (by omega)) a3)]
    rfl
  show transaction _ s = _
  rw [transaction_done (hc' 0 (by omega)) er (stopBus_mid (hc' 4 (by omega)))]
  rfl

theorem readAcked_of_feed {s t : State} {k : Nat} (hf : t.busFeed = feedSkip s.busFeed k) (hc : t.cfg = s.cfg) (j n : Nat) :
    t.ReadAcked j n ↔ s.ReadAcked (k + j) n := by
  constructor
  · rintro ⟨h, a, b, c⟩
    simp only [busAt_of_feed hf, completesAt_of_feed hf hc, ← Nat.add_assoc] at h a b c
    exact ⟨h, a, b, c⟩
  · rintro ⟨h, a, b, c⟩
    refine ⟨?_, ?_, ?_, ?_⟩ <;> simp only [busAt_of_feed hf, completesAt_of_feed hf hc, ← Nat.add_assoc] <;> assumption

theorem writeAcked_of_feed {s t : State} {k : Nat} (hf : t.busFeed = feedSkip s.busFeed k) (hc : t.cfg = s.cfg) (j : Nat) :
    t.WriteAcked j ↔ s.WriteAcked (k + j) := by
  constructor
  · rintro ⟨h, a, b, c⟩
    simp only [busAt_of_feed hf, completesAt_of_feed hf hc, ← Nat.add_assoc] at h a b c
    exact ⟨h, a, b, c⟩
  · rintro ⟨h, a, b, c⟩
    refine ⟨?_, ?_, ?_, ?_⟩ <;> simp only [busAt_of_feed hf, completesAt_of_feed hf hc, ← Nat.add_assoc] <;> assumption

theorem answers_of_feed {s t : State} {k : Nat} (hf : t.busFeed = feedSkip s.busFeed k) (j n : Nat) :
    t.answers j n = s.answers (k + j) n := by
  simp only [State.answers, busAt_of_feed hf, ← Nat.add_assoc]

theorem readAcked_congr {s t : State} (h : t.busFeed = s.busFeed) (hc : t.cfg = s.cfg) (k n : Nat) :
    t.ReadAcked k n ↔ s.ReadAcked k n := by
  have := readAcked_of_feed (s := s) (t := t) (k := 0) (by rw [h]; rfl) hc k n
  rwa [Nat.zero_add] at this

theorem writeAcked_congr {s t : State} (h : t.busFeed = s.busFeed) (hc : t.cfg = s.cfg) (k : Nat) :
    t.WriteAcked k ↔ s.WriteAcked k := by
  have := writeAcked_of_feed (s := s) (t := t) (k := 0) (by rw [h]; rfl) hc k
  rwa [Nat.zero_add] at this

theorem answers_congr {s t : State} (h : t.busFeed = s.busFeed) (k n : Nat) : t.answers k n = s.answers k n := by
  simp only [State.answers, busAt_congr h]

/-- The frame of a transaction as one equation, for statements that name what may change. -/
theorem TransportOnly.eq {s t : State} (h : TransportOnly s t) :
    t = { s with
      tphase := t.tphase
      tcount := t.tcount
      tidx := t.tidx
      rbuf := t.rbuf
      rlen := t.rlen
      trace := t.trace
      busFeed := t.busFeed } := by
  cases s; cases t; cases h; simp_all

/-! ## What a WRITE leaves alone in the transport (R121) -/

/-- A part that leaves the READ result alone. -/
def Tx.KeepsResult (f : Tx) : Prop := ∀ s, (f s).2.rbuf = s.rbuf ∧ (f s).2.rlen = s.rlen

theorem condition_keepsResult (p : TPhase) (e : BusEvent) : Tx.KeepsResult (condition p e) := fun s => by
  unfold condition; dsimp only; split <;> simp

theorem send_keepsResult (p : TPhase) (b : Byte) : Tx.KeepsResult (send p b) := fun s => by
  unfold send; dsimp only; split <;> simp

theorem runParts_keepsResult (fs : List Tx) (h : ∀ f ∈ fs, f.KeepsResult) : Tx.KeepsResult (runParts fs) := by
  induction fs with
  | nil => intro s; exact ⟨rfl, rfl⟩
  | cons f fs ih =>
    intro s
    have h1 := h f List.mem_cons_self s
    have h2 := ih (fun g hg => h g (List.mem_cons_of_mem f hg)) (f s).2
    rw [runParts_cons]
    split
    · exact ⟨h2.1.trans h1.1, h2.2.trans h1.2⟩
    · exact h1

/-- `rbuf` and `rlen` are not touched by a WRITE, whatever the bus does (R121, R125). -/
theorem busWrite_keepsResult (r : RegNum) (v : Byte) : Tx.KeepsResult (busWrite r v) := fun s => by
  have h1 := condition_keepsResult .start .start s
  have h2 := runParts_keepsResult (writeParts s.busAddr r v)
    (by simp [writeParts, send_keepsResult]) (condition .start .start s).2
  unfold busWrite transaction; dsimp only
  split
  · split
    · simp [h1, h2]
    · simp [State.abandon, h1, h2]
  · simp [State.abandon, h1]

end Sys2Proof.Machine
end

