-- ==== Sys2Proof/Laws/Failures.lean ====
section
/-! SUPPORT. Transactions that fail: what each kind of part leaves when its wait point does not go well, the one STOP that
ends them, and the bounds of 40_transport.md R124. -/

namespace Sys2Proof.Machine

/-- What a part leaves when its wait point `k`, the part having started in `s.mid … l k`, does not go well. -/
structure PartFails (s : State) (l : List BusEvent) (k : Nat) (u : State) : Prop where
  busFeed : u.busFeed = feedSkip s.busFeed (k + 1)
  cfg : u.cfg = s.cfg
  timeout : ¬ s.completesAt k → u.trace = s.trace ++ l

/-- `s` in the middle of a transaction, one more answer used and `l` on the bus in all. -/
theorem partFails_mid (s : State) (p : TPhase) (w : Nat) (l : List BusEvent) (k : Nat) : PartFails s l k (s.mid p w l (k + 1)) :=
  ⟨rfl, rfl, fun _ => rfl⟩

theorem mid_timeout {s : State} {q : TPhase} {w k : Nat} {l : List BusEvent} (p : TPhase) (h : ¬ s.completesAt k) :
    waitPoint ((s.mid q w l k).atPhase p) = (none, s.mid p s.cfg.busTimeout l (k + 1)) := by
  rw [waitPoint_timeout fun hc => h ((completesAt_of_feed (mid_feed s q w l k) rfl 0).1 ((completesAt_atPhase p _ 0).1 hc))]
  simp [State.waited, State.atPhase, State.mid, feedSkip_skip]

/-- A START or repeated START that times out. -/
theorem condition_mid_fails {s : State} {q : TPhase} {w k : Nat} {l : List BusEvent} (p : TPhase) (e : BusEvent)
    (h : ¬ s.completesAt k) : ∃ u, condition p e (s.mid q w l k) = (false, u) ∧ PartFails s l k u :=
  ⟨_, by unfold condition; rw [mid_timeout p h], partFails_mid s p _ l k⟩

/-- A byte sent that times out or is answered NACK. -/
theorem send_mid_fails {s : State} {q : TPhase} {w k : Nat} {l : List BusEvent} (p : TPhase) (b : Byte)
    (h : ¬ (s.completesAt k ∧ (s.busAt k).ack = true)) : ∃ u, send p b (s.mid q w l k) = (false, u) ∧ PartFails s l k u ∧
      (s.completesAt k → u.trace = s.trace ++ l ++ [.sent b false]) := by
  by_cases hc : s.completesAt k
  · have ha : (s.busAt k).ack = false := by simpa [hc] using h
    refine ⟨s.mid p (s.busAt k).wait (l ++ [.sent b false]) (k + 1), ?_, ⟨rfl, rfl, fun hn => absurd hc hn⟩,
      fun _ => by simp [State.mid]⟩
    rw [send_done p b ((completesAt_of_feed (mid_feed s q w l k) rfl 0).2 hc), busAt_of_feed (mid_feed s q w l k),
      Nat.add_zero, ha]
    simp [State.mid, State.atPhase, State.waited, State.emit, feedSkip_skip]
  · exact ⟨_, by unfold send; rw [mid_timeout p hc], partFails_mid s p _ l k, fun hn => absurd hn hc⟩

/-- Data bytes of which the one after `j` never arrives (R120). -/
theorem receiveBytes_fails (n j : Nat) (s : State) (hj : j < n) (hb : ∀ i < j, s.completesAt i) (hf : ¬ s.completesAt j) :
    (receiveBytes n s).1 = false ∧ (receiveBytes n s).2.busFeed = feedSkip s.busFeed (j + 1) ∧
      (receiveBytes n s).2.trace = s.trace ++ (dataTrace (s.nextBytes n)).take j := by
  induction n generalizing s j with
  | zero => omega
  | succ n ih =>
    rcases j with _ | j
    · unfold receiveBytes; rw [waitPoint_timeout hf]; simp [State.waited]
    · have h0 := waitPoint_completes (hb 0 (Nat.succ_pos j))
      let t : State := ((s.waited (s.busAt 0).wait).emit (.received (s.busAt 0).byte (n != 0))).storeByte (s.busAt 0).byte
      have ht : receiveBytes (n + 1) s = receiveBytes n t := by
        conv_lhs => unfold receiveBytes
        rw [h0]
      have hft : t.busFeed = feedSkip s.busFeed 1 := rfl
      obtain ⟨a, b, c⟩ := ih j t (by omega)
        (fun i hi => (completesAt_of_feed hft rfl i).2 (by rw [Nat.add_comm]; exact hb _ (by omega)))
        (fun hc => hf (by have := (completesAt_of_feed hft rfl j).1 hc; rwa [Nat.add_comm] at this))
      rw [ht, State.nextBytes_succ s n hft, dataTrace_cons]
      refine ⟨a, by rw [b, hft, feedSkip_skip]; congr 1; omega, ?_⟩
      rw [c]
      simp [t, State.storeByte, State.emit, State.waited]

theorem receiveAll_mid_fails {s : State} {q : TPhase} {w : Nat} {l : List BusEvent} (n j : Nat) (hj : j < n)
    (hb : ∀ i < j, s.completesAt (5 + i)) (hf : ¬ s.completesAt (5 + j)) :
    ∃ u, receiveAll n (s.mid q w l 5) = (false, u) ∧ PartFails s (l ++ (dataTrace (s.answers 0 n)).take j) (5 + j) u := by
  obtain ⟨x, hx⟩ : ∃ x : State, x = { s.mid q w l 5 with tphase := .rdata, tidx := 0 } := ⟨_, rfl⟩
  have hxf : x.busFeed = feedSkip s.busFeed 5 := by rw [hx]; rfl
  have hxc : x.cfg = s.cfg := by rw [hx]; rfl
  obtain ⟨a, b, c⟩ := receiveBytes_fails n j x hj (fun i hi => (completesAt_of_feed hxf hxc i).2 (hb i hi))
    (mt (completesAt_of_feed hxf hxc j).1 hf)
  have hn : x.nextBytes n = s.answers 0 n := by simp only [State.nextBytes, State.answers, busAt_of_feed hxf, Nat.zero_add]
  refine ⟨(receiveBytes n x).2, ?_, ?_, (receiveBytes_local n x).cfg.trans hxc, fun _ => ?_⟩
  · show receiveBytes n { s.mid q w l 5 with tphase := .rdata, tidx := 0 } = _
    rw [← hx]; exact Prod.ext a rfl
  · rw [b, hxf, feedSkip_skip]; congr 1
  · rw [c, hn, hx]; simp [State.mid]

theorem runParts_cons_fails {f : Tx} {fs : List Tx} {s t : State} (h : f s = (false, t)) :
    runParts (f :: fs) s = (false, t) := by rw [runParts_cons, h]; rfl

/-- A START that times out leaves nothing on the bus and uses one answer (R125). -/
theorem transaction_unowned (parts : List Tx) {s : State} (h : ¬ s.completesAt 0) :
    (transaction parts s).2.trace = s.trace ∧ (transaction parts s).2.busFeed = feedSkip s.busFeed 1 := by
  have h' := mt (completesAt_atPhase .start s 0).1 h
  unfold transaction condition; rw [waitPoint_timeout h']; exact ⟨rfl, rfl⟩

/-- However its parts went, a transaction that owned the bus ends with one STOP (R125). -/
theorem transaction_owned (parts : List Tx) {s : State} {b : Bool} {u : State} (h : s.completesAt 0)
    (hr : runParts parts (s.mid .start (s.busAt 0).wait [.start] 1) = (b, u)) :
    (transaction parts s).2.trace = u.trace ++ [.stop] ∧ (transaction parts s).2.busFeed = feedSkip u.busFeed 1 := by
  unfold transaction; rw [start_mid h]; simp only [hr, if_true]
  split <;> simp [State.atPhase, State.abandon]

theorem cutShort_of_part {s u : State} {full l : List BusEvent} {last k : Nat} (parts : List Tx) (h0 : s.completesAt 0)
    (hk : k < last) (hk0 : k ≠ 0) (hr : runParts parts (s.mid .start (s.busAt 0).wait [.start] 1) = (false, u))
    (hp : PartFails s l k u) (hl : full.take k = l)
    (hn : s.completesAt k → ∃ b, full[k]? = some (.sent b true) ∧ u.trace = s.trace ++ l ++ [.sent b false]) :
    CutShort s (transaction parts s).2 full last k := by
  obtain ⟨ht, hf⟩ := transaction_owned parts h0 hr
  refine ⟨fun h => absurd h hk0, fun _ => ?_, fun _ hc => ?_, fun hc => ?_⟩
  · rw [hf, hp.busFeed, feedSkip_skip]; congr 1; omega
  · rw [ht, hp.timeout hc, hl]
  · obtain ⟨b, h1, h2⟩ := hn hc
    refine ⟨b, h1, ?_⟩
    rw [ht, h2, hl]; simp

theorem cutShort_of_start {s : State} {full : List BusEvent} {last : Nat} (parts : List Tx) (h0 : ¬ s.completesAt 0) :
    CutShort s (transaction parts s).2 full last 0 :=
  ⟨fun _ => transaction_unowned parts h0, fun h => absurd rfl h, fun h => absurd rfl h, fun h => absurd h h0⟩

theorem cutShort_of_stop {s u : State} {full : List BusEvent} {last : Nat} (parts : List Tx) (h0 : s.completesAt 0)
    (hl : last ≠ 0) (hf : ¬ s.completesAt last)
    (hr : runParts parts (s.mid .start (s.busAt 0).wait [.start] 1) = (true, u)) (ht : u.trace = s.trace ++ full.take last)
    (hu : u.busFeed = feedSkip s.busFeed last) : CutShort s (transaction parts s).2 full last last := by
  obtain ⟨ht', hf'⟩ := transaction_owned parts h0 hr
  refine ⟨fun h => absurd h hl, fun _ => ?_, fun _ _ => by rw [ht', ht], fun h => absurd h hf⟩
  rw [hf', hu, feedSkip_skip]; congr 1; omega

theorem dataTrace_length (bytes : List Byte) : (dataTrace bytes).length = bytes.length := by
  induction bytes <;> simp_all [dataTrace]

theorem CutShort.congr {s s' t t' : State} {full : List BusEvent} {last k : Nat} (h : CutShort s t full last k)
    (hf : s'.busFeed = s.busFeed) (hc : s'.cfg = s.cfg) (ht : s'.trace = s.trace) (hf' : t'.busFeed = t.busFeed)
    (ht' : t'.trace = t.trace) : CutShort s' t' full last k := by
  obtain ⟨a, b, c, d⟩ := h
  constructor <;> simp only [completesAt_congr hf hc, hf, ht, hf', ht'] <;> assumption

/-- Every transaction that ends in a `CutShort` used at least one answer and none beyond its STOP's (R124). -/
theorem CutShort.feed {s t : State} {full : List BusEvent} {last k : Nat} (h : CutShort s t full last k) :
    ∃ m, t.busFeed = feedSkip s.busFeed m ∧ 1 ≤ m ∧ m ≤ last + 1 := by
  by_cases hk : k = 0
  · exact ⟨1, (h.unowned hk).2, by omega, by omega⟩
  · exact ⟨_, h.used hk, by omega, by omega⟩

/-- Each wait point takes at most `BUS_TIMEOUT` polls (R124). -/
theorem polls_le (s : State) {m n : Nat} (h : m ≤ n) : s.polls m ≤ n * s.cfg.busTimeout := by
  refine le_trans ?_ (Nat.mul_le_mul_right _ h)
  unfold State.polls
  induction m with
  | zero => simp
  | succ m ih =>
    have := ih (by omega)
    rw [List.range_succ, Nat.add_mul]
    simp
    omega

/-- The last wait point of a transaction is its STOP's, or its START's where that timed out (R22, R124). -/
theorem transaction_tcount_le (parts : List Tx) (hp : ∀ f ∈ parts, f.Local) (s : State) :
    (transaction parts s).2.tcount ≤ s.cfg.busTimeout := by
  have h1 := (condition_local .start .start s).cfg
  have h2 := (runParts_local parts hp (condition .start .start s).2).cfg.trans h1
  unfold transaction; dsimp only
  split
  · have h := waitPoint_tcount_le ((runParts parts (condition .start .start s).2).2.atPhase .stop)
    rw [State.atPhase_cfg, h2] at h
    split <;> exact h
  · have h := waitPoint_tcount_le (s.atPhase .start)
    unfold condition; dsimp only
    split <;> exact h

/-- `rbuf` and `rlen` are not touched by a list of hard writes, whatever the bus does (R121, 41_device_config.md R133). -/
theorem applyHard_keepsResult (l : WriteList) (s : State) :
    (applyHard l s).2.rbuf = s.rbuf ∧ (applyHard l s).2.rlen = s.rlen := by
  induction l generalizing s with
  | nil => exact ⟨rfl, rfl⟩
  | cons w l ih =>
    have := busWrite_keepsResult w.1 w.2 s
    unfold applyHard; split
    · exact ⟨(ih _).1.trans this.1, (ih _).2.trans this.2⟩
    · exact this

end Sys2Proof.Machine
end

