-- ==== Sys2Proof/Laws/PerInstr.lean ====
section
/-! SUPPORT. A statement about each instruction as syntax: its encoded word carries its operation code and operands in the
fields of 30_encoding.md R90, with the reserved field zero. -/

namespace Sys2Proof.Laws.EncodedFields

/-- The four fields of the encoded word are the operation code, zero, and the two operands (R90, R91, R92). -/
def Statement (i : Instr) : Prop :=
  opField (encode i) = opcodeOf i ∧ rsvField (encode i) = 0 ∧ aField (encode i) = operandA i ∧ bField (encode i) = operandB i

/-- Fields of a word assembled as R106 says. -/
theorem fields_of_assembled (op : BitVec 4) (a b : Byte) :
    opField ((op.setWidth 24 <<< 20) ||| (a.setWidth 24 <<< 8) ||| b.setWidth 24) = op ∧
      rsvField ((op.setWidth 24 <<< 20) ||| (a.setWidth 24 <<< 8) ||| b.setWidth 24) = 0 ∧
      aField ((op.setWidth 24 <<< 20) ||| (a.setWidth 24 <<< 8) ||| b.setWidth 24) = a ∧
      bField ((op.setWidth 24 <<< 20) ||| (a.setWidth 24 <<< 8) ||| b.setWidth 24) = b := by
  refine ⟨?_, ?_, ?_, ?_⟩ <;> (apply BitVec.eq_of_getLsbD_eq; intro i hi) <;>
    simp only [opField, rsvField, aField, bField, BitVec.getLsbD_extractLsb', BitVec.getLsbD_or, BitVec.getLsbD_shiftLeft,
      BitVec.getLsbD_setWidth] <;> simp <;> grind

theorem read (r : RegNum) (n : Byte) : Statement (.read r n) := fields_of_assembled _ _ _

theorem write (r : RegNum) (v : Byte) : Statement (.write r v) := fields_of_assembled _ _ _

theorem setaddr (s : BitVec 1) : Statement (.setaddr s) := fields_of_assembled _ _ _

theorem init : Statement .init := fields_of_assembled _ _ _

theorem enable : Statement .enable := fields_of_assembled _ _ _

theorem sleep : Statement .sleep := fields_of_assembled _ _ _

theorem readInstant : Statement .readInstant := fields_of_assembled _ _ _

theorem wakeupCheck : Statement .wakeupCheck := fields_of_assembled _ _ _

theorem eventFlags : Statement .eventFlags := fields_of_assembled _ _ _

theorem eventsClear : Statement .eventsClear := fields_of_assembled _ _ _

end Sys2Proof.Laws.EncodedFields
end

