-- ==== Sys2Proof/Laws/Sequencer.lean ====
section
/-! SUPPORT. The operations built on the transport: write lists, the line sample, the status pass, capture, and the spin-wait's
induction (41_device_config.md R133, 42_capture_classifier.md R150, 43_wake_sequencer.md R180 to R184). -/

namespace Sys2Proof.Machine

/-- `t` differs from `s` at most in the transport's registers, the trace, the bus answers used and the three flag registers. -/
structure StatusOnly (s t : State) : Prop where
  cfg : t.cfg = s.cfg
  busAddr : t.busAddr = s.busAddr
  buf : t.buf = s.buf
  depth : t.depth = s.depth
  clickSeen : t.clickSeen = s.clickSeen
  downLatch : t.downLatch = s.downLatch
  downStartMs : t.downStartMs = s.downStartMs
  wakeState : t.wakeState = s.wakeState
  irqEn : t.irqEn = s.irqEn
  irqPending : t.irqPending = s.irqPending
  irqLine : t.irqLine = s.irqLine
  spinCount : t.spinCount = s.spinCount
  fastCount : t.fastCount = s.fastCount
  slowCount : t.slowCount = s.slowCount
  lastClickMs : t.lastClickMs = s.lastClickMs
  halted : t.halted = s.halted
  fatalComponent : t.fatalComponent = s.fatalComponent
  fatalCode : t.fatalCode = s.fatalCode
  ctx : t.ctx = s.ctx
  responses : t.responses = s.responses
  lineFeed : t.lineFeed = s.lineFeed
  clockFeed : t.clockFeed = s.clockFeed
  eventFeed : t.eventFeed = s.eventFeed

theorem StatusOnly.refl (s : State) : StatusOnly s s :=
  ⟨rfl, rfl, rfl, rfl, rfl, rfl, rfl, rfl, rfl, rfl, rfl, rfl, rfl, rfl, rfl, rfl, rfl, rfl, rfl, rfl, rfl, rfl, rfl⟩

theorem StatusOnly.trans {s t u : State} (h : StatusOnly s t) (g : StatusOnly t u) : StatusOnly s u :=
  ⟨g.cfg.trans h.cfg,
    g.busAddr.trans h.busAddr,
    g.buf.trans h.buf,
    g.depth.trans h.depth,
    g.clickSeen.trans h.clickSeen,
    g.downLatch.trans h.downLatch,
    g.downStartMs.trans h.downStartMs,
    g.wakeState.trans h.wakeState,
    g.irqEn.trans h.irqEn,
    g.irqPending.trans h.irqPending,
    g.irqLine.trans h.irqLine,
    g.spinCount.trans h.spinCount,
    g.fastCount.trans h.fastCount,
    g.slowCount.trans h.slowCount,
    g.lastClickMs.trans h.lastClickMs,
    g.halted.trans h.halted,
    g.fatalComponent.trans h.fatalComponent,
    g.fatalCode.trans h.fatalCode,
    g.ctx.trans h.ctx,
    g.responses.trans h.responses,
    g.lineFeed.trans h.lineFeed,
    g.clockFeed.trans h.clockFeed,
    g.eventFeed.trans h.eventFeed⟩

theorem TransportOnly.toStatusOnly {s t : State} (h : TransportOnly s t) : StatusOnly s t :=
  ⟨h.cfg, h.busAddr, h.buf, h.depth, h.clickSeen, h.downLatch, h.downStartMs, h.wakeState, h.irqEn, h.irqPending, h.irqLine, h.spinCount, h.fastCount, h.slowCount, h.lastClickMs, h.halted, h.fatalComponent, h.fatalCode, h.ctx, h.responses, h.lineFeed, h.clockFeed, h.eventFeed⟩

/-- `t` differs from `s` at most in the transport's registers, the trace, the bus answers used and the Capture Buffer. -/
structure CaptureOnly (s t : State) : Prop where
  cfg : t.cfg = s.cfg
  busAddr : t.busAddr = s.busAddr
  int1Flags : t.int1Flags = s.int1Flags
  int2Flags : t.int2Flags = s.int2Flags
  clickFlags : t.clickFlags = s.clickFlags
  clickSeen : t.clickSeen = s.clickSeen
  downLatch : t.downLatch = s.downLatch
  downStartMs : t.downStartMs = s.downStartMs
  wakeState : t.wakeState = s.wakeState
  irqEn : t.irqEn = s.irqEn
  irqPending : t.irqPending = s.irqPending
  irqLine : t.irqLine = s.irqLine
  spinCount : t.spinCount = s.spinCount
  fastCount : t.fastCount = s.fastCount
  slowCount : t.slowCount = s.slowCount
  lastClickMs : t.lastClickMs = s.lastClickMs
  halted : t.halted = s.halted
  fatalComponent : t.fatalComponent = s.fatalComponent
  fatalCode : t.fatalCode = s.fatalCode
  ctx : t.ctx = s.ctx
  responses : t.responses = s.responses
  lineFeed : t.lineFeed = s.lineFeed
  clockFeed : t.clockFeed = s.clockFeed
  eventFeed : t.eventFeed = s.eventFeed

theorem CaptureOnly.refl (s : State) : CaptureOnly s s :=
  ⟨rfl, rfl, rfl, rfl, rfl, rfl, rfl, rfl, rfl, rfl, rfl, rfl, rfl, rfl, rfl, rfl, rfl, rfl, rfl, rfl, rfl, rfl, rfl, rfl⟩

theorem CaptureOnly.trans {s t u : State} (h : CaptureOnly s t) (g : CaptureOnly t u) : CaptureOnly s u :=
  ⟨g.cfg.trans h.cfg,
    g.busAddr.trans h.busAddr,
    g.int1Flags.trans h.int1Flags,
    g.int2Flags.trans h.int2Flags,
    g.clickFlags.trans h.clickFlags,
    g.clickSeen.trans h.clickSeen,
    g.downLatch.trans h.downLatch,
    g.downStartMs.trans h.downStartMs,
    g.wakeState.trans h.wakeState,
    g.irqEn.trans h.irqEn,
    g.irqPending.trans h.irqPending,
    g.irqLine.trans h.irqLine,
    g.spinCount.trans h.spinCount,
    g.fastCount.trans h.fastCount,
    g.slowCount.trans h.slowCount,
    g.lastClickMs.trans h.lastClickMs,
    g.halted.trans h.halted,
    g.fatalComponent.trans h.fatalComponent,
    g.fatalCode.trans h.fatalCode,
    g.ctx.trans h.ctx,
    g.responses.trans h.responses,
    g.lineFeed.trans h.lineFeed,
    g.clockFeed.trans h.clockFeed,
    g.eventFeed.trans h.eventFeed⟩

theorem TransportOnly.toCaptureOnly {s t : State} (h : TransportOnly s t) : CaptureOnly s t :=
  ⟨h.cfg, h.busAddr, h.int1Flags, h.int2Flags, h.clickFlags, h.clickSeen, h.downLatch, h.downStartMs, h.wakeState, h.irqEn, h.irqPending, h.irqLine, h.spinCount, h.fastCount, h.slowCount, h.lastClickMs, h.halted, h.fatalComponent, h.fatalCode, h.ctx, h.responses, h.lineFeed, h.clockFeed, h.eventFeed⟩

/-! ## Write lists -/

theorem listAcked_cons {s : State} {w : RegNum × Byte} {l : WriteList} (h : s.ListAcked 0 (w :: l)) :
    s.WriteAcked 0 ∧ s.ListAcked 5 l := by
  refine ⟨by simpa using h 0 (by simp), fun j hj => ?_⟩
  have := h (j + 1) (by simpa using hj)
  rwa [show 0 + 5 * (j + 1) = 5 + 5 * j by omega] at this

theorem listAcked_of_feed {s t : State} {k : Nat} (hf : t.busFeed = feedSkip s.busFeed k) (hc : t.cfg = s.cfg) (j : Nat)
    (l : WriteList) : t.ListAcked j l ↔ s.ListAcked (k + j) l :=
  forall₂_congr fun i _ => by rw [writeAcked_of_feed hf hc, Nat.add_assoc]

/-- A list of which every write is acknowledged: its trace and the answers it uses (R133). -/
theorem applySoft_done (l : WriteList) (s : State) (h : s.ListAcked 0 l) :
    (applySoft l s).trace = s.trace ++ listTrace s.busAddr l ∧
      (applySoft l s).busFeed = feedSkip s.busFeed (5 * l.length) := by
  induction l generalizing s with
  | nil => simp [applySoft, listTrace, feedSkip]
  | cons w l ih =>
    obtain ⟨h1, h2⟩ := listAcked_cons h
    have hw := busWrite_done w.1 w.2 s h1
    obtain ⟨t, ht⟩ : ∃ t, t = (busWrite w.1 w.2 s).2 := ⟨_, rfl⟩
    have hf : t.busFeed = feedSkip s.busFeed 5 := by rw [ht, hw]
    have hc : t.cfg = s.cfg := by rw [ht, hw]
    have ha : t.busAddr = s.busAddr := by rw [ht, hw]
    have hl : t.trace = s.trace ++ writeTrace s.busAddr w.1 w.2 := by rw [ht, hw]
    have := ih t ((listAcked_of_feed hf hc 0 l).2 h2)
    show (applySoft l (busWrite w.1 w.2 s).2).trace = _ ∧ (applySoft l (busWrite w.1 w.2 s).2).busFeed = _
    rw [← ht, this.1, this.2, ha, hl, hf, feedSkip_skip]
    refine ⟨by simp [listTrace], ?_⟩
    congr 1
    simp; omega

/-- A list written up to its first failure, when there is none (R133). -/
theorem applyHard_done (l : WriteList) (s : State) (h : s.ListAcked 0 l) :
    applyHard l s = (true, applySoft l s) := by
  induction l generalizing s with
  | nil => rfl
  | cons w l ih =>
    obtain ⟨h1, h2⟩ := listAcked_cons h
    have hw := busWrite_done w.1 w.2 s h1
    have hf : (busWrite w.1 w.2 s).2.busFeed = feedSkip s.busFeed 5 := by rw [hw]
    have hc : (busWrite w.1 w.2 s).2.cfg = s.cfg := by rw [hw]
    unfold applyHard
    rw [if_pos (by rw [hw]), ih _ ((listAcked_of_feed hf hc 0 l).2 h2)]
    rfl

/-! ## The line sample -/

/-- A line sample keeps a pending edge, and sets one only while servicing is armed (R180). -/
theorem sampleLine_pending (s : State) :
    (s.irqPending = true → (sampleLine s).irqPending = true) ∧
      ((sampleLine s).irqPending = true → s.irqPending = true ∨ s.irqEn = true) := by
  suffices h : ∀ (ls : List Bool) (t : State), (t.irqPending = true → (lineSteps ls t).irqPending = true) ∧
      ((lineSteps ls t).irqPending = true → t.irqPending = true ∨ t.irqEn = true) from
      h (s.lineStepsAt 0) { s with lineFeed := feedSkip s.lineFeed 1 }
  intro ls
  induction ls with
  | nil => intro t; exact ⟨id, Or.inl⟩
  | cons l ls ih =>
    intro t
    obtain ⟨h1, h2⟩ := ih (lineStep l t)
    refine ⟨fun h => h1 (by simp [h]), fun h => ?_⟩
    rcases h2 h with h | h
    · simp only [lineStep_irqPending, Bool.or_eq_true, Bool.and_eq_true] at h
      tauto
    · exact Or.inr h

/-- The line after some `Line` steps is the last level given (10_state.md R35). -/
theorem lineSteps_level (ls : List Bool) (s : State) : (lineSteps ls s).irqLine = ls.getLastD s.irqLine := by
  induction ls generalizing s with
  | nil => rfl
  | cons l ls ih =>
    show (lineSteps ls (lineStep l s)).irqLine = _
    rw [ih]
    cases ls <;> simp [List.getLastD]

/-! ## The status pass and the capture -/

theorem readInt1_statusOnly (s : State) : StatusOnly s (readInt1 s) := by
  have h := (busRead_transportOnly s.cfg.regInt1Src 1 s).toStatusOnly
  unfold readInt1; dsimp only
  split
  · exact h.trans ⟨rfl, rfl, rfl, rfl, rfl, rfl, rfl, rfl, rfl, rfl, rfl, rfl, rfl, rfl, rfl, rfl, rfl, rfl, rfl, rfl, rfl, rfl, rfl⟩
  · exact h

theorem readInt2_statusOnly (s : State) : StatusOnly s (readInt2 s) := by
  have h := (busRead_transportOnly s.cfg.regInt2Src 1 s).toStatusOnly
  unfold readInt2; dsimp only
  split
  · exact h.trans ⟨rfl, rfl, rfl, rfl, rfl, rfl, rfl, rfl, rfl, rfl, rfl, rfl, rfl, rfl, rfl, rfl, rfl, rfl, rfl, rfl, rfl, rfl, rfl⟩
  · exact h

theorem readClick_statusOnly (s : State) : StatusOnly s (readClick s) := by
  have h := (busRead_transportOnly s.cfg.regClickSrc 1 s).toStatusOnly
  unfold readClick; dsimp only
  split
  · exact h.trans ⟨rfl, rfl, rfl, rfl, rfl, rfl, rfl, rfl, rfl, rfl, rfl, rfl, rfl, rfl, rfl, rfl, rfl, rfl, rfl, rfl, rfl, rfl, rfl⟩
  · exact h

/-- What a status pass can change (R182). -/
theorem statusPass_statusOnly (s : State) : StatusOnly s (statusPass s) :=
  ((readInt1_statusOnly s).trans (readInt2_statusOnly _)).trans (readClick_statusOnly _)

theorem readInt1_tphase (s : State) : (readInt1 s).tphase = .idle := by
  unfold readInt1; dsimp only; split <;> simp

theorem readInt2_tphase (s : State) : (readInt2 s).tphase = .idle := by
  unfold readInt2; dsimp only; split <;> simp

theorem readClick_tphase (s : State) : (readClick s).tphase = .idle := by
  unfold readClick; dsimp only; split <;> simp

theorem statusPass_tphase (s : State) : (statusPass s).tphase = .idle := readClick_tphase _

theorem captureBlocks_captureOnly (n : Nat) (s : State) : CaptureOnly s (captureBlocks n s) := by
  have h := (busRead_transportOnly s.cfg.regOut (bytesPerSample * n) s).toCaptureOnly
  unfold captureBlocks; dsimp only
  split <;> exact h.trans ⟨rfl, rfl, rfl, rfl, rfl, rfl, rfl, rfl, rfl, rfl, rfl, rfl, rfl, rfl, rfl, rfl, rfl, rfl, rfl, rfl, rfl, rfl, rfl, rfl⟩

/-- What a capture can change (R150). -/
theorem capture_captureOnly (s : State) : CaptureOnly s (capture s) := by
  have h := (busRead_transportOnly s.cfg.regFifoSrc 1 s).toCaptureOnly
  unfold capture; dsimp only
  split
  · exact h.trans (captureBlocks_captureOnly _ _)
  · exact h.trans ⟨rfl, rfl, rfl, rfl, rfl, rfl, rfl, rfl, rfl, rfl, rfl, rfl, rfl, rfl, rfl, rfl, rfl, rfl, rfl, rfl, rfl, rfl, rfl, rfl⟩

/-- What an instant reading can change (R151). -/
theorem instant_transportOnly (s : State) : TransportOnly s (instant s).2 := busRead_transportOnly _ _ s

/-- A property that a line sample, a re-read pass and a write list keep is kept by the spin-wait (R181, R183, R184). -/
theorem spinWait_preserves (P : State → Prop) (hs : ∀ s, P s → P (sampleLine s)) (hr : ∀ s, P s → P (rereadPass s))
    (ha : ∀ l s, P s → P (applySoft l s)) (k : Nat) (s : State) (h : P s) : P (spinWait k s) := by
  induction k generalizing s with
  | zero => exact h
  | succ k ih =>
    unfold spinWait; dsimp only
    split
    · split
      · exact ha _ _ (hs _ h)
      · exact ih _ (hr _ (hs _ h))
    · exact hs _ h

theorem applySoft_keepsResult (l : WriteList) (s : State) : (applySoft l s).rbuf = s.rbuf ∧ (applySoft l s).rlen = s.rlen := by
  induction l generalizing s with
  | nil => exact ⟨rfl, rfl⟩
  | cons w l ih =>
    have h1 := busWrite_keepsResult w.1 w.2 s
    have h2 := ih (busWrite w.1 w.2 s).2
    exact ⟨h2.1.trans h1.1, h2.2.trans h1.2⟩

theorem applySoft_append (a b : WriteList) (s : State) : applySoft (a ++ b) s = applySoft b (applySoft a s) := by
  induction a generalizing s with
  | nil => rfl
  | cons w a ih => exact ih _

theorem applySoft_tphase (l : WriteList) (s : State) (h : s.tphase = .idle) : (applySoft l s).tphase = .idle := by
  induction l generalizing s with
  | nil => exact h
  | cons w l ih => exact ih _ (busWrite_tphase _ _ _)

theorem listAcked_append {s : State} {k : Nat} {a b : WriteList} :
    s.ListAcked k (a ++ b) ↔ s.ListAcked k a ∧ s.ListAcked (k + 5 * a.length) b := by
  constructor
  · intro h
    refine ⟨fun j hj => h j (by simp; omega), fun j hj => ?_⟩
    have := h (a.length + j) (by simp; omega)
    rwa [show k + 5 * (a.length + j) = k + 5 * a.length + 5 * j by omega] at this
  · rintro ⟨h1, h2⟩ j hj
    by_cases h : j < a.length
    · exact h1 j h
    · have := h2 (j - a.length) (by simp at hj; omega)
      rwa [show k + 5 * a.length + 5 * (j - a.length) = k + 5 * j by omega] at this

/-! ## More about the line -/

theorem sampleLine_lineFeed (s : State) : (sampleLine s).lineFeed = feedSkip s.lineFeed 1 := by
  suffices h : ∀ (ls : List Bool) (t : State), (lineSteps ls t).lineFeed = t.lineFeed from h _ _
  intro ls
  induction ls with
  | nil => intro t; rfl
  | cons l ls ih => intro t; exact ih _

theorem sampleLine_irqLine (s : State) : (sampleLine s).irqLine = (s.lineStepsAt 0).getLastD s.irqLine := lineSteps_level _ _

theorem lineStepsAt_of_feed {s t : State} {n : Nat} (h : t.lineFeed = feedSkip s.lineFeed n) (k : Nat) :
    t.lineStepsAt k = s.lineStepsAt (n + k) := by
  simp only [State.lineStepsAt, h, feedAt_skip]

theorem lineStepsAt_congr {s t : State} (h : t.lineFeed = s.lineFeed) (k : Nat) : t.lineStepsAt k = s.lineStepsAt k := by
  simp only [State.lineStepsAt, h]

/-! ## SERVICE in its three parts (R181) -/

/-- SERVICE up to the spin-wait: the flags cleared, the first status pass, the pending bit and the counter cleared. -/
def serviceStart (s : State) : State := { statusPass s.enterService with irqPending := false, spinCount := 0 }

theorem service_eq (s : State) : service s = (advance (spinWait (spinMax + 1) (serviceStart s))).leaveService := rfl

/-- `t` differs from `s` at most in what SERVICE writes (43_wake_sequencer.md R181, 44_click_debounce.md R229). -/
structure ServiceOnly (s t : State) : Prop where
  cfg : t.cfg = s.cfg
  busAddr : t.busAddr = s.busAddr
  clickSeen : t.clickSeen = s.clickSeen
  downLatch : t.downLatch = s.downLatch
  downStartMs : t.downStartMs = s.downStartMs
  irqEn : t.irqEn = s.irqEn
  fastCount : t.fastCount = s.fastCount
  slowCount : t.slowCount = s.slowCount
  lastClickMs : t.lastClickMs = s.lastClickMs
  halted : t.halted = s.halted
  fatalComponent : t.fatalComponent = s.fatalComponent
  fatalCode : t.fatalCode = s.fatalCode
  responses : t.responses = s.responses
  clockFeed : t.clockFeed = s.clockFeed
  eventFeed : t.eventFeed = s.eventFeed

theorem ServiceOnly.trans {s t u : State} (h : ServiceOnly s t) (g : ServiceOnly t u) : ServiceOnly s u :=
  ⟨g.cfg.trans h.cfg, g.busAddr.trans h.busAddr, g.clickSeen.trans h.clickSeen, g.downLatch.trans h.downLatch,
    g.downStartMs.trans h.downStartMs, g.irqEn.trans h.irqEn, g.fastCount.trans h.fastCount, g.slowCount.trans h.slowCount,
    g.lastClickMs.trans h.lastClickMs, g.halted.trans h.halted, g.fatalComponent.trans h.fatalComponent,
    g.fatalCode.trans h.fatalCode, g.responses.trans h.responses, g.clockFeed.trans h.clockFeed,
    g.eventFeed.trans h.eventFeed⟩

theorem TransportOnly.toServiceOnly {s t : State} (h : TransportOnly s t) : ServiceOnly s t :=
  ⟨h.cfg, h.busAddr, h.clickSeen, h.downLatch, h.downStartMs, h.irqEn, h.fastCount, h.slowCount, h.lastClickMs, h.halted,
    h.fatalComponent, h.fatalCode, h.responses, h.clockFeed, h.eventFeed⟩

theorem CaptureOnly.toServiceOnly {s t : State} (h : CaptureOnly s t) : ServiceOnly s t :=
  ⟨h.cfg, h.busAddr, h.clickSeen, h.downLatch, h.downStartMs, h.irqEn, h.fastCount, h.slowCount, h.lastClickMs, h.halted,
    h.fatalComponent, h.fatalCode, h.responses, h.clockFeed, h.eventFeed⟩

theorem setWakeState_serviceOnly (w : WakeState) (s : State) : ServiceOnly s { s with wakeState := w } :=
  ⟨rfl, rfl, rfl, rfl, rfl, rfl, rfl, rfl, rfl, rfl, rfl, rfl, rfl, rfl, rfl⟩

/-- What the start of SERVICE leaves alone, and what it sets (R181). -/
theorem serviceStart_statusOnly (s : State) :
    StatusOnly { s with ctx := .interrupt, irqPending := false, spinCount := 0 } (serviceStart s) := by
  have h := statusPass_statusOnly s.enterService
  exact ⟨h.cfg, h.busAddr, h.buf, h.depth, h.clickSeen, h.downLatch, h.downStartMs, h.wakeState, h.irqEn, rfl, h.irqLine, rfl,
    h.fastCount, h.slowCount, h.lastClickMs, h.halted, h.fatalComponent, h.fatalCode, h.ctx, h.responses, h.lineFeed,
    h.clockFeed, h.eventFeed⟩

/-- A re-read pass counts itself and gathers flags; it leaves the rest alone (R183). -/
theorem rereadPass_statusOnly (s : State) : StatusOnly { s with spinCount := s.spinCount + 1 } (rereadPass s) :=
  statusPass_statusOnly _

theorem spinWait_serviceOnly (k : Nat) (s : State) : ServiceOnly s (spinWait k s) := by
  refine spinWait_preserves (ServiceOnly s) (fun t h => h.trans ?_) (fun t h => h.trans ?_)
    (fun l t h => h.trans (applySoft_transportOnly l t).toServiceOnly) k s
    ⟨rfl, rfl, rfl, rfl, rfl, rfl, rfl, rfl, rfl, rfl, rfl, rfl, rfl, rfl, rfl⟩
  · constructor <;> simp
  · have g := rereadPass_statusOnly t
    exact ⟨g.cfg, g.busAddr, g.clickSeen, g.downLatch, g.downStartMs, g.irqEn, g.fastCount, g.slowCount, g.lastClickMs,
      g.halted, g.fatalComponent, g.fatalCode, g.responses, g.clockFeed, g.eventFeed⟩

/-- The spin-wait leaves the wake state and the Capture Buffer alone (R183). -/
theorem spinWait_keeps (k : Nat) (s : State) :
    (spinWait k s).wakeState = s.wakeState ∧ (spinWait k s).buf = s.buf ∧ (spinWait k s).depth = s.depth := by
  refine spinWait_preserves (fun t => t.wakeState = s.wakeState ∧ t.buf = s.buf ∧ t.depth = s.depth) (fun t h => by simpa)
    (fun t h => ?_) (fun l t h => by simpa) k s ⟨rfl, rfl, rfl⟩
  have g := rereadPass_statusOnly t
  exact ⟨g.wakeState.trans h.1, g.buf.trans h.2.1, g.depth.trans h.2.2⟩

theorem spinWait_tphase (k : Nat) (s : State) (h : s.tphase = .idle) : (spinWait k s).tphase = .idle :=
  spinWait_preserves (fun t => t.tphase = .idle) (fun t h => by simpa) (fun _ _ => statusPass_tphase _)
    (fun l t h => applySoft_tphase l t h) k s h

theorem advance_serviceOnly (s : State) : ServiceOnly s (advance s) := by
  unfold advance
  split
  · exact setWakeState_serviceOnly _ _
  · split
    · exact (applySoft_transportOnly _ s).toServiceOnly.trans (setWakeState_serviceOnly _ _)
    · split
      · unfold advanceUp; dsimp only
        split <;> exact (capture_captureOnly s).toServiceOnly.trans
          ((applySoft_transportOnly _ _).toServiceOnly.trans (setWakeState_serviceOnly _ _))
      · exact setWakeState_serviceOnly _ _
    all_goals exact setWakeState_serviceOnly s.wakeState s

/-- ADVANCE reads the flags and the line's registers and writes none of them (R185). -/
theorem advance_keeps (s : State) :
    (advance s).int1Flags = s.int1Flags ∧ (advance s).int2Flags = s.int2Flags ∧ (advance s).clickFlags = s.clickFlags ∧
      (advance s).irqPending = s.irqPending ∧ (advance s).irqLine = s.irqLine ∧ (advance s).spinCount = s.spinCount ∧
      (advance s).lineFeed = s.lineFeed ∧ (advance s).ctx = s.ctx := by
  have hc := capture_captureOnly s
  unfold advance advanceDown advanceUp; dsimp only
  split
  · simp
  · split
    · simp
    · split
      · split <;> simp [hc.lineFeed, hc.irqLine, hc.irqPending, hc.spinCount, hc.int1Flags, hc.int2Flags, hc.clickFlags, hc.ctx]
      · simp
    all_goals simp

theorem capture_tphase (s : State) : (capture s).tphase = .idle := by
  unfold capture captureBlocks; dsimp only
  split
  · split <;> simp
  · simp

theorem advance_tphase (s : State) (h : s.tphase = .idle) : (advance s).tphase = .idle := by
  unfold advance
  split
  · exact h
  · split
    · exact applySoft_tphase _ s h
    · split
      · unfold advanceUp; dsimp only
        split <;> exact applySoft_tphase _ _ (capture_tphase s)
      · exact h
    all_goals exact h

/-! ## The classifier and the instant reading -/

/-- The verdict depends on the parameters and the Capture Buffer alone (42_capture_classifier.md R153). -/
theorem classify_congr {s t : State} (h1 : t.cfg = s.cfg) (h2 : t.depth = s.depth) (h3 : t.buf = s.buf) :
    classify t = classify s := by
  have he : extSample t = extSample s := by funext i; simp only [extSample, h2, h3]
  have hx : sumX t = sumX s := by funext i; simp only [sumX, he]
  have hy : sumY t = sumY s := by funext i; simp only [sumY, he]
  have hz : sumZ t = sumZ s := by funext i; simp only [sumZ, he]
  have hs : score t = score s := by unfold score; congr 1; funext i; simp only [weighted, he, h1]
  unfold classify
  simp only [stageY9, stageLastBelow, stageSlope, stageX5, stageXY, stageLastAbove, stageOvershoot, lastSample, hx, hy, hz, he,
    hs, h1, h2]
  congr!

theorem instant_some {s : State} (h : s.ReadAcked 0 6) :
    (instant s).1 = some (sampleAt s.cfg.sampleBits (s.answers 0 6) 0) := by
  unfold instant; dsimp only
  rw [show bytesPerSample = 6 from rfl, busRead_done _ _ _ (by decide) h]; rfl

theorem instant_none {s : State} (h : ¬ s.ReadAcked 0 6) : (instant s).1 = none := by
  unfold instant; dsimp only
  rw [show bytesPerSample = 6 from rfl, (busRead_failed h).1]; rfl

theorem instant_tphase (s : State) : (instant s).2.tphase = .idle := busRead_tphase _ _ _

end Sys2Proof.Machine
end

