-- ==== Sys2Proof/Laws/Service.lean ====
section
/-! SUPPORT. The parts of a servicing pass: what the edge detector sees, what each status read leaves, and SERVICE with the
number of its loop held abstract (43_wake_sequencer.md R180 to R183). -/

namespace Sys2Proof.Machine

/-! ## The edge detector over several levels -/

/-- A deasserted level followed by an asserted one, the line starting at `a`. -/
def rises : Bool → List Bool → Bool
  | _, [] => false
  | a, b :: l => (!a && b) || rises b l

theorem rises_append (a : Bool) (l m : List Bool) : rises a (l ++ m) = (rises a l || rises (l.getLastD a) m) := by
  induction l generalizing a with
  | nil => simp [rises]
  | cons b l ih => simp only [List.cons_append, rises, ih, List.getLastD_cons, Bool.or_assoc]

/-- `rises` says that the two levels follow one another somewhere. -/
theorem rises_iff (a : Bool) (l : List Bool) : rises a l = true ↔ [false, true] <:+: a :: l := by
  induction l generalizing a with
  | nil =>
    simp only [rises, Bool.false_eq_true, false_iff]
    intro h; have := h.length_le; simp at this
  | cons b l ih =>
    rw [List.infix_cons_iff, ← ih]
    cases a <;> cases b <;> simp [rises]

/-- What the edge detector makes of several `Line` steps (43_wake_sequencer.md R180). -/
theorem lineSteps_pending (ls : List Bool) (s : State) :
    (lineSteps ls s).irqPending = (s.irqPending || (s.irqEn && rises s.irqLine ls)) := by
  induction ls generalizing s with
  | nil => simp [lineSteps, rises]
  | cons l ls ih =>
    rw [lineSteps, ih]
    simp only [lineStep, rises]
    cases s.irqPending <;> cases l <;> cases s.irqLine <;> cases s.irqEn <;> simp

theorem sampleLine_pending_eq (s : State) :
    (sampleLine s).irqPending = (s.irqPending || (s.irqEn && rises s.irqLine (s.lineStepsAt 0))) := lineSteps_pending _ _

/-! ## The three status reads (R182) -/

theorem readInt1_done {s : State} (h : s.ReadAcked 0 1) :
    (readInt1 s).int1Flags = s.int1Flags.or (decodeMotion s.cfg.motionLayout (s.busAt 5).byte) ∧
      (readInt1 s).busFeed = feedSkip s.busFeed 7 ∧
      (readInt1 s).trace = s.trace ++ readTrace s.cfg s.busAddr s.cfg.regInt1Src (s.answers 0 1) := by
  unfold readInt1; rw [busRead_done _ 1 s (by omega) h]; exact ⟨rfl, rfl, rfl⟩

theorem readInt1_failed {s : State} (h : ¬ s.ReadAcked 0 1) : (readInt1 s).int1Flags = s.int1Flags := by
  unfold readInt1; dsimp only; rw [(busRead_failed (r := s.cfg.regInt1Src) h).1]; simp

theorem readInt2_done {s : State} (h : s.ReadAcked 0 1) :
    (readInt2 s).int2Flags = s.int2Flags.or (decodeMotion s.cfg.motionLayout (s.busAt 5).byte) ∧
      (readInt2 s).busFeed = feedSkip s.busFeed 7 ∧
      (readInt2 s).trace = s.trace ++ readTrace s.cfg s.busAddr s.cfg.regInt2Src (s.answers 0 1) := by
  unfold readInt2; rw [busRead_done _ 1 s (by omega) h]; exact ⟨rfl, rfl, rfl⟩

theorem readInt2_failed {s : State} (h : ¬ s.ReadAcked 0 1) : (readInt2 s).int2Flags = s.int2Flags := by
  unfold readInt2; dsimp only; rw [(busRead_failed (r := s.cfg.regInt2Src) h).1]; simp

theorem readClick_done {s : State} (h : s.ReadAcked 0 1) :
    (readClick s).clickFlags = s.clickFlags.or (decodeClick s.cfg.clickLayout (s.busAt 5).byte) ∧
      (readClick s).busFeed = feedSkip s.busFeed 7 ∧
      (readClick s).trace = s.trace ++ readTrace s.cfg s.busAddr s.cfg.regClickSrc (s.answers 0 1) := by
  unfold readClick; rw [busRead_done _ 1 s (by omega) h]; exact ⟨rfl, rfl, rfl⟩

theorem readClick_failed {s : State} (h : ¬ s.ReadAcked 0 1) : (readClick s).clickFlags = s.clickFlags := by
  unfold readClick; dsimp only; rw [(busRead_failed (r := s.cfg.regClickSrc) h).1]; simp

/-- Each status read leaves the other two flag registers alone. -/
theorem readInt1_keeps (s : State) : (readInt1 s).int2Flags = s.int2Flags ∧ (readInt1 s).clickFlags = s.clickFlags := by
  unfold readInt1; dsimp only; split <;> simp

theorem readInt2_keeps (s : State) : (readInt2 s).int1Flags = s.int1Flags ∧ (readInt2 s).clickFlags = s.clickFlags := by
  unfold readInt2; dsimp only; split <;> simp

theorem readClick_keeps (s : State) : (readClick s).int1Flags = s.int1Flags ∧ (readClick s).int2Flags = s.int2Flags := by
  unfold readClick; dsimp only; split <;> simp

theorem MotionFlags.none_or (f : MotionFlags) : MotionFlags.none.or f = f := rfl

theorem ClickFlags.none_or (f : ClickFlags) : ClickFlags.none.or f = f := rfl

/-! ## SERVICE with its loop -/

/-- SERVICE with the number that its loop starts from held abstract, so that no proof unfolds 1001 passes (log 25). -/
theorem service_parts (s : State) :
    ∃ k, k = 1000 ∧ service s = (advance (spinWait (k + 1) (serviceStart s))).leaveService := ⟨spinMax, rfl, rfl⟩

/-- A wait whose first sample finds the line deasserted ends there (R183). -/
theorem spinWait_deasserted (k : Nat) {s : State} (h : (s.lineStepsAt 0).getLastD s.irqLine = false) :
    spinWait (k + 1) s = sampleLine s := by
  have h' : (sampleLine s).irqLine = false := by rw [sampleLine_irqLine, h]
  unfold spinWait; dsimp only; rw [h']; rfl

end Sys2Proof.Machine
end

