-- ==== Sys2Proof/Laws/Step.lean ====
section
/-! SUPPORT. What a step can be (00_scope.md R10, 70_reset_and_hazards.md R293), and the parts of INIT's probe and of a poll. -/

namespace Sys2Proof.Machine

/-- The seven ways a step answers a next state. -/
theorem step_cases {s t : State} (h : step s = .next t) :
    (∃ l, s.nextEvent = .line l ∧ t = lineStep l s.takeEvent) ∨
    (∃ l, s.nextEvent = .reset l ∧ t = resetStep l s.takeEvent) ∨
    (∃ w i, s.nextEvent = .command w ∧ s.cmdReady = true ∧ decode w = .ok i ∧ exec i s.takeEvent = .next t) ∨
    (∃ w e, s.nextEvent = .command w ∧ s.cmdReady = true ∧ decode w = .error e ∧ t = answerIllegal s.takeEvent) ∨
    (∃ w, s.nextEvent = .command w ∧ s.cmdReady = false ∧ s.irqPending = true ∧ s.halted = false ∧ t = service s) ∨
    (s.nextEvent = .quiet ∧ s.irqPending = true ∧ s.halted = false ∧ t = service s.takeEvent) ∨
    (s.nextEvent = .quiet ∧ s.halted = false ∧ t = s.takeEvent) := by
  unfold step at h
  cases he : s.nextEvent with
  | line l => rw [he] at h; cases h; exact .inl ⟨l, rfl, rfl⟩
  | reset l => rw [he] at h; cases h; exact .inr (.inl ⟨l, rfl, rfl⟩)
  | command w =>
    rw [he] at h
    dsimp only at h
    unfold offerWord at h
    split at h
    · next hc =>
      unfold runWord at h
      split at h
      · next i hi => exact .inr (.inr (.inl ⟨w, i, rfl, hc, hi, h⟩))
      · next e hi => cases h; exact .inr (.inr (.inr (.inl ⟨w, e, rfl, hc, hi, rfl⟩)))
    · next hc =>
      split at h
      · next hd =>
        simp only [State.serviceDue, Bool.and_eq_true, Bool.not_eq_true'] at hd
        cases h
        exact .inr (.inr (.inr (.inr (.inl ⟨w, rfl, by simpa using hc, hd.1, hd.2, rfl⟩))))
      · split at h <;> cases h
  | quiet =>
    rw [he] at h
    dsimp only at h
    unfold idleTurn at h
    split at h
    · next hd =>
      simp only [State.serviceDue, Bool.and_eq_true, Bool.not_eq_true'] at hd
      cases h
      exact .inr (.inr (.inr (.inr (.inr (.inl ⟨rfl, hd.1, hd.2, rfl⟩)))))
    · split at h
      · cases h
      · next hh => cases h; exact .inr (.inr (.inr (.inr (.inr (.inr ⟨rfl, by simpa using hh, rfl⟩)))))

/-! ## INIT's probe (41_device_config.md R130) -/

theorem probe_done {s : State} {a : BusAddr} (h : s.ReadAcked 0 1) :
    probe a s = (some (s.answers 0 1), { s with
      busAddr := a
      tphase := .idle
      tcount := (s.busAt 6).wait
      tidx := 1
      rbuf := overlay s.rbuf (s.answers 0 1)
      rlen := 1
      trace := s.trace ++ readTrace s.cfg a s.cfg.regId (s.answers 0 1)
      busFeed := feedSkip s.busFeed 7 }) := by
  have h' := (readAcked_congr (s := s) (t := { s with busAddr := a }) rfl rfl 0 1).2 h
  unfold probe
  rw [busRead_done _ _ _ (by decide) h', answers_congr (s := s) (t := { s with busAddr := a }) rfl]
  rfl

theorem probe_failed {s : State} {a : BusAddr} (h : ¬ s.ReadAcked 0 1) :
    (probe a s).1 = none ∧ (probe a s).2 = { s with
      busAddr := a
      tphase := .idle
      tcount := (probe a s).2.tcount
      tidx := 0
      rbuf := (probe a s).2.rbuf
      rlen := 0
      trace := (probe a s).2.trace
      busFeed := (probe a s).2.busFeed } := by
  have h' := mt (readAcked_congr (s := s) (t := { s with busAddr := a }) rfl rfl 0 1).1 h
  obtain ⟨h1, h2, h3, h4⟩ := busRead_failed (r := s.cfg.regId) h'
  refine ⟨h1, ?_⟩
  have := (busRead_transportOnly s.cfg.regId 1 { s with busAddr := a }).eq
  rw [h2, h3, h4] at this
  exact this

/-! ## A poll in its parts (44_click_debounce.md R220) -/

/-- A poll after its part 1. -/
def pollExpired (s : State) : State := expireWindows (s.clockAt 0) s.enterForeground.sampleClock

/-- A poll after its part 2. -/
def pollOriented (s : State) : State := updateDownLatch (s.clockAt 0) (instant (pollExpired s)).1 (instant (pollExpired s)).2

/-- The event set of a poll. -/
def pollEvents (s : State) : Byte :=
  eventBits (windowEnded s.fastCount fastWindowMs (s.clockAt 0) s.lastClickMs)
    (windowEnded s.slowCount slowWindowMs (s.clockAt 0) s.lastClickMs) (pollClick (s.clockAt 0) (pollOriented s)).1
    (sustainedDown (s.clockAt 0) (instant (pollExpired s)).1 (pollOriented s))

theorem execEventFlags_eq (s : State) :
    exec .eventFlags s = .next ((pollClick (s.clockAt 0) (pollOriented s)).2.respond .ok (pollEvents s) []) := rfl

theorem eventBits_bits (fastEnd slowEnd click down : Bool) :
    (eventBits fastEnd slowEnd click down).getLsbD 0 = fastEnd ∧ (eventBits fastEnd slowEnd click down).getLsbD 1 = slowEnd ∧
      (eventBits fastEnd slowEnd click down).getLsbD 2 = click ∧ (eventBits fastEnd slowEnd click down).getLsbD 3 = down ∧
      (eventBits fastEnd slowEnd click down).toNat < 16 := by
  cases fastEnd <;> cases slowEnd <;> cases click <;> cases down <;> decide

end Sys2Proof.Machine
end

