-- ==== Sys2Proof/Tests/Slice0.lean ====
section
/-! SUPPORT. The model's own tests: ill-formed commands, words written out from 30_encoding.md, single steps with results from
95_test_vectors.md, and for every obligation with hypotheses a state and operands that meet them. -/

namespace Sys2Proof.Tests

open Sys2Proof Sys2Proof.Machine

-- One test after another: each is evaluated in the kernel, and all at once they hold too many threads.
set_option Elab.async false

/-! ## Helpers -/

/-- A bus answer at once: acknowledged, byte 0. -/
def ok : BusAnswer := ⟨0, true, 0⟩

/-- A bus answer that delivers a byte. -/
def sends (b : Byte) : BusAnswer := ⟨0, true, b⟩

/-- A byte not acknowledged. -/
def nack : BusAnswer := ⟨0, false, 0⟩

/-- A wait point at the bound of `P0`: a timeout. -/
def late : BusAnswer := ⟨100, true, 0⟩

/-- A READ that delivers these bytes. -/
def reads (bytes : List Byte) : List BusAnswer := List.replicate 5 ok ++ bytes.map sends ++ [ok]

/-- A WRITE that is acknowledged. -/
def writes : List BusAnswer := List.replicate 5 ok

/-- A transaction that fails at its address byte. -/
def fails : List BusAnswer := [ok, nack, ok]

/-- The block after reset with these bus answers. -/
def onBus (l : List BusAnswer) : State := { State.reset with busFeed := ⟨l, 0⟩ }

/-- `s` with these events next at its ports. -/
def offered (s : State) (l : List Event) : State := { s with eventFeed := ⟨l, 0⟩ }

/-- `s` with these `Line` steps at its line samples. -/
def lines (s : State) (l : List (List Bool)) : State := { s with lineFeed := ⟨l, 0⟩ }

/-- `s` with this clock answer next. -/
def clock (s : State) (t : Time) : State := { s with clockFeed := ⟨[t], 0⟩ }

/-- An outcome is a next state with a property. -/
def nextHas (o : Host.Outcome State Fault Refusal) (p : State → Bool) : Bool :=
  match o with
  | .next t => p t
  | _ => false

/-- The last response. -/
def answered (t : State) (r : Response) : Bool := t.responses.getLast? == some r

/-! ## Well-formedness -/

theorem smoke_illformed_read_of_no_bytes : (Instr.read 0x28 0).wf = false := by decide

theorem smoke_wellformed_read_of_most_bytes : (Instr.read 0x7F 255).wf = true := by decide

/-! ## Decoding, vectors E1 to E16 (opcode, reserved, operand a, operand b written bit by bit) -/

theorem test_decode_read : decode 0b0001_0000_00001111_00000001 = .ok (.read 0x0F 1) := by decide

theorem test_decode_read_most : decode 0b0001_0000_01111111_11111111 = .ok (.read 0x7F 255) := by decide

theorem test_decode_write : decode 0b0010_0000_00100000_01110111 = .ok (.write 0x20 0x77) := by decide

theorem test_decode_setaddr : decode 0b0011_0000_00000001_00000000 = .ok (.setaddr 1) := by decide

theorem test_decode_init : decode 0b0100_0000_00000000_00000000 = .ok .init := by decide

theorem test_decode_enable : decode 0b0101_0000_00000000_00000000 = .ok .enable := by decide

theorem test_decode_sleep : decode 0b0110_0000_00000000_00000000 = .ok .sleep := by decide

theorem test_decode_readInstant : decode 0b0111_0000_00000000_00000000 = .ok .readInstant := by decide

theorem test_decode_wakeupCheck : decode 0b1000_0000_00000000_00000000 = .ok .wakeupCheck := by decide

theorem test_decode_eventFlags : decode 0b1001_0000_00000000_00000000 = .ok .eventFlags := by decide

theorem test_decode_eventsClear : decode 0b1010_0000_00000000_00000000 = .ok .eventsClear := by decide

/-- E4, E5, E8, E11, E12, E14, E15, E16. -/
theorem test_decode_illegal :
    decode 0x102800 = .error .zeroCount ∧ decode 0x10A806 = .error .operandBits ∧ decode 0x208000 = .error .operandBits ∧
      decode 0x300200 = .error .operandBits ∧ decode 0x300001 = .error .operandBits ∧ decode 0x400001 = .error .operandBits ∧
      decode 0x410000 = .error .reservedBits ∧ decode 0x000000 = .error .unassignedOp ∧
      decode 0xB00000 = .error .unassignedOp ∧ decode 0xF00000 = .error .unassignedOp := by decide

theorem test_decodeTableWord : decodeTableWord 24 0x102806 = some (.read 0x28 6) := by decide

/-! ## Single steps -/

/-- T2. -/
theorem test_read_traces_and_answers : nextHas (exec (.read 0x28 6) (onBus (reads [1, 2, 3, 4, 5, 6]))) (fun t =>
    t.trace == [.start, .sent 0x30 true, .sent 0xA8 true, .restart, .sent 0x31 true, .received 1 true, .received 2 true,
      .received 3 true, .received 4 true, .received 5 true, .received 6 false, .stop] &&
    answered t ⟨.ok, 0, [1, 2, 3, 4, 5, 6]⟩ && t.rlen == 6) = true := by decide +kernel

/-- T6: the third data byte never arrives. -/
theorem test_read_cut_by_timeout : nextHas (exec (.read 0x28 6) (onBus ((reads [1, 2]).take 7 ++ [late, ok]))) (fun t =>
    t.trace == [.start, .sent 0x30 true, .sent 0xA8 true, .restart, .sent 0x31 true, .received 1 true, .received 2 true,
      .stop] && answered t ⟨.errBus, 0, []⟩ && t.rlen == 0) = true := by decide +kernel

/-- T9; and a STOP that times out, which is not attempted again: five wait points in all (R124). -/
theorem test_write_traces : nextHas (exec (.write 0x20 0x77) (onBus writes)) (fun t =>
    t.trace == [.start, .sent 0x30 true, .sent 0x20 true, .sent 0x77 true, .stop] && answered t ⟨.ok, 0, []⟩) = true ∧
    nextHas (exec (.write 0x20 0x77) (onBus [ok, ok, ok, ok, late])) (fun t =>
      answered t ⟨.errBus, 0, []⟩ && t.busFeed.pos == 5 && t.tcount == 100) = true := by decide +kernel

/-- T10: the value byte is not acknowledged; `rlen` stays. -/
theorem test_write_failed_keeps_rlen :
    nextHas (exec (.write 0x20 0x77) { onBus [ok, ok, ok, nack, ok] with rlen := 6 }) (fun t =>
      t.trace == [.start, .sent 0x30 true, .sent 0x20 true, .sent 0x77 false, .stop] && answered t ⟨.errBus, 0, []⟩ &&
        t.rlen == 6) = true := by decide +kernel

/-- T11. -/
theorem test_setaddr : nextHas (exec (.setaddr 1) State.reset) (fun t => t.busAddr == 0x19 && t.trace == []) = true := by decide +kernel

/-- I2: the fallback to the secondary address. -/
theorem test_init_fallback : nextHas (exec .init (onBus (fails ++ reads [0x33]))) (fun t =>
    t.trace == [.start, .sent 0x30 false, .stop, .start, .sent 0x32 true, .sent 0x0F true, .restart, .sent 0x33 true,
      .received 0x33 false, .stop] && t.busAddr == 0x19 && answered t ⟨.ok, 0, []⟩) = true := by decide +kernel

/-- I4: a wrong identity at the primary address is fatal at once. -/
theorem test_init_wrong_identity : nextHas (exec .init (onBus (reads [0x32]))) (fun t =>
    t.halted && t.fatalCode == 2 && t.busAddr == 0x18 && t.responses == [] && t.busFeed.pos == 7) = true := by decide +kernel

/-- N2: a soft write fails, all nine are attempted. -/
theorem test_enable_soft_failure : nextHas (exec .enable
    { onBus (writes ++ writes ++ fails ++ (List.replicate 6 writes).flatten) with irqEn := true, irqPending := true }) (fun t =>
      answered t ⟨.ok, 0, []⟩ && !t.irqEn && !t.irqPending && t.busFeed.pos == 43) = true := by decide +kernel

/-- N3: the eighth write fails, the ninth is not attempted. -/
theorem test_enable_hard_failure : nextHas (exec .enable (onBus ((List.replicate 7 writes).flatten ++ fails))) (fun t =>
    t.halted && t.fatalCode == 3 && t.fatalComponent == 1 && t.responses == [] && t.busFeed.pos == 38) = true := by decide +kernel

/-- N4: every write fails; B18: the counters go to zero. -/
theorem test_sleep_with_a_dead_bus : nextHas (exec .sleep
    { onBus (List.replicate 6 fails).flatten with fastCount := 1, slowCount := 1, depth := 7 }) (fun t =>
      answered t ⟨.ok, 0, []⟩ && t.wakeState == .waitForDown && t.irqEn && t.fastCount == 0 && t.slowCount == 0 &&
        t.depth == 0 && t.busFeed.pos == 18) = true := by decide +kernel

/-- A4. -/
theorem test_readInstant : nextHas (exec .readInstant (onBus (reads [0x00, 0x05, 0x00, 0xFB, 0x00, 0x20]))) (fun t =>
    answered t ⟨.ok, 1, [0x05, 0x00, 0xFB, 0xFF, 0x20, 0x00]⟩) = true := by decide +kernel

/-- A5. -/
theorem test_readInstant_failed : nextHas (exec .readInstant (onBus fails)) (fun t => answered t ⟨.errBus, 0, []⟩) = true := by
  decide +kernel

/-- Q2. -/
theorem test_wakeupCheck_at_the_threshold : nextHas (exec .wakeupCheck
    { onBus (reads [0, 0, 0, 0, 0, 0x14]) with wakeState := .wakeByClick }) (fun t =>
      answered t ⟨.ok, 1, []⟩ && t.wakeState == .wakeByClick) = true := by decide +kernel

/-- Q3. -/
theorem test_wakeupCheck_below_the_threshold : nextHas (exec .wakeupCheck
    { onBus (reads [0, 0, 0, 0, 0, 0x13]) with wakeState := .wakeByClick }) (fun t => answered t ⟨.ok, 0, []⟩) = true := by
  decide +kernel

/-- B9, its second poll: a window ends and a new run starts in one poll. -/
theorem test_eventFlags_new_run : nextHas (exec .eventFlags (lines (clock
    { onBus (reads [0, 0, 0, 0, 0, 0x20] ++ reads [0x54]) with fastCount := 1, slowCount := 1, lastClickMs := 1000 } 1500)
      [[true]])) (fun t => answered t ⟨.ok, 5, []⟩ && t.fastCount == 1 && t.slowCount == 2 && t.lastClickMs == 1500 &&
        t.clickSeen) = true := by decide +kernel

/-- B17: the elapsed time wraps. -/
theorem test_eventFlags_clock_wrap : nextHas (exec .eventFlags (lines (clock
    { onBus (reads [0, 0, 0, 0, 0, 0x20]) with fastCount := 1, slowCount := 1, lastClickMs := 0xFFFFFF00 } 0x100)
      [[false]])) (fun t => answered t ⟨.ok, 1, []⟩ && t.fastCount == 0 && t.slowCount == 1) = true := by decide +kernel

/-- B10. -/
theorem test_eventsClear : nextHas (exec .eventsClear
    { State.reset with fastCount := 1, slowCount := 1, lastClickMs := 1000, clickSeen := true }) (fun t =>
      answered t ⟨.ok, 0, []⟩ && t.fastCount == 0 && t.slowCount == 0 && t.lastClickMs == 1000 && t.clickSeen) = true := by
  decide +kernel

/-! ## Servicing and the classifier -/

/-- The block with an edge pending, the line asserted until its first sample. -/
def pending (w : WakeState) (l : List BusAnswer) : State :=
  lines (offered { onBus l with wakeState := w, irqEn := true, irqPending := true, irqLine := true } [.quiet]) [[false]]

/-- W5. -/
theorem test_service_accepts : nextHas (step (pending .waitForUp (reads [0x60] ++ reads [0] ++ reads [0] ++ reads [0] ++
    reads [0, 0, 0, 0, 0, 0xFF] ++ writes ++ writes))) (fun t =>
      t.wakeState == .wakeByTurnUp && t.depth == 1 && t.buf[0] == ⟨0, 0, -1⟩ && !t.irqPending && t.busFeed.pos == 50) = true := by
  decide +kernel

/-- W6: (0, 0, 110) at depth 1 is rejected, as K12. -/
theorem test_service_rejects : nextHas (step (pending .waitForUp (reads [0] ++ reads [0x48] ++ reads [0] ++ reads [0] ++
    reads [0, 0, 0, 0, 0, 0x6E] ++ writes ++ writes ++ writes))) (fun t =>
      t.wakeState == .waitForDown && t.busFeed.pos == 55) = true := by decide +kernel

/-- W12: two re-read passes; a flag once seen stays seen. -/
theorem test_service_rereads : nextHas (step (lines (pending .waitForDown (reads [0] ++ reads [0] ++ reads [0x54] ++
    (List.replicate 6 (reads [0])).flatten)) [[], [], [false]])) (fun t =>
      t.wakeState == .wakeByClick && t.spinCount == 2 && t.clickFlags.active && t.busFeed.pos == 63) = true := by decide +kernel

/-- W15: a new assertion during the wait, already over when sampled, is kept. -/
theorem test_service_keeps_a_new_edge : nextHas (step (lines (pending .waitForDown (reads [0x45] ++ reads [0] ++ reads [0] ++
    writes ++ writes ++ writes)) [[false, true, false]])) (fun t =>
      t.wakeState == .waitForUp && t.irqPending && !t.irqLine && t.spinCount == 0) = true := by decide +kernel

/-- A full capture with these samples. -/
def captured (f : Nat → Sample) : State := { State.reset with depth := 32, buf := Vector.ofFn fun i => f i.val }

/-- K3: the slope boundary is inclusive. -/
theorem test_classify_slope_boundary :
    classify (captured fun i => if i = 31 then ⟨0, 0, 110⟩ else ⟨0, 0, 0⟩) = (.accept, 4) := by decide +kernel

/-- K5: stage 3 stands before stage 4. -/
theorem test_classify_guard_first :
    classify (captured fun i => if i = 31 then ⟨0, -6, 110⟩ else ⟨0, 0, 0⟩) = (.reject, 3) := by decide +kernel

/-- S2, S6: a raw value cut to 10 bits and the most negative 16-bit value. -/
theorem test_axisValue : axisValue 10 0x40 0xF6 = -39 ∧ axisValue 16 0x00 0x80 = -32768 := by decide +kernel

/-- W2: an edge with `irq_en = 1` is recorded, in a running block and, "halted or not", in a halted one (R180). -/
theorem test_line_edge_running_and_halted :
    let armed := offered { State.reset with irqEn := true } [.line true]
    nextHas (step armed) (fun t => t.irqPending && t.irqLine) = true ∧
      nextHas (step { armed with halted := true }) (fun t => t.irqPending && t.irqLine) = true := by
  decide +kernel

/-- A command offered to a halted block is a fault (N5). -/
theorem test_halted_is_a_fault :
    step (offered { State.reset with halted := true } [.command 0x100F01]) = .fault .halted := by rfl

/-! ## Words the host asks about -/

theorem test_withFetchWord : nextHas (step (State.reset.withFetchWord 24 0x300100)) (fun t => t.busAddr == 0x19) = true := by
  decide +kernel

/-! ## Witnesses: for each obligation with hypotheses, data that meet them -/

theorem readAcked_of {s : State} {k n : Nat} (h : (∀ j < n + 6, s.completesAt (k + j)) ∧ (s.busAt (k + 1)).ack = true ∧
    (s.busAt (k + 2)).ack = true ∧ (s.busAt (k + 4)).ack = true) : s.ReadAcked k n :=
  ⟨h.1, h.2.1, h.2.2.1, h.2.2.2⟩

theorem writeAcked_of {s : State} {k : Nat} (h : (∀ j < 5, s.completesAt (k + j)) ∧ (s.busAt (k + 1)).ack = true ∧
    (s.busAt (k + 2)).ack = true ∧ (s.busAt (k + 3)).ack = true) : s.WriteAcked k :=
  ⟨h.1, h.2.1, h.2.2.1, h.2.2.2⟩

theorem listAcked_of {s : State} {k : Nat} {l : WriteList} (h : ∀ j < l.length, (∀ i < 5, s.completesAt (k + 5 * j + i)) ∧
    (s.busAt (k + 5 * j + 1)).ack = true ∧ (s.busAt (k + 5 * j + 2)).ack = true ∧ (s.busAt (k + 5 * j + 3)).ack = true) :
    s.ListAcked k l :=
  fun j hj => writeAcked_of (h j hj)

theorem not_readAcked_of {s : State} {k n : Nat} (h : (s.busAt (k + 1)).ack = false) : ¬ s.ReadAcked k n := fun hr => by
  rw [hr.addrW] at h; cases h

theorem witness_DecodeOfEncodeIsTheCommand : (Instr.read 0x7F 255).wf = true ∧ (Instr.read 0 1).wf = true := by decide

theorem witness_EncodeOfDecodeIsTheWord : decode 0x107FFF = .ok (.read 0x7F 255) ∧ decode 0x100001 = .ok (.read 0 1) := by
  decide

theorem witness_WordsDecodeByTheOpcodeTable : decode 0xA00000 = .ok .eventsClear := by decide

theorem noRow_0x102800 : ∀ row ∈ opcodeRows, ¬ (selects row 0x102800 ∧ (row.2 = 0x100000 → bField 0x102800 ≠ 0)) := by
  intro row h
  simp only [opcodeRows, List.mem_cons, List.not_mem_nil, or_false] at h
  rcases h with h | h | h | h | h | h | h | h | h | h <;> subst h <;> decide

theorem witness_IllegalWordIsAnsweredErrCmd :
    let s := offered State.reset [.command 0x102800];
    s.cmdReady = true ∧ s.nextEvent = .command 0x102800 ∧
      ∀ row ∈ opcodeRows, ¬ (selects row 0x102800 ∧ (row.2 = 0x100000 → bField 0x102800 ≠ 0)) :=
  ⟨rfl, rfl, noRow_0x102800⟩

theorem witness_FrameBytesCarryAddressAndRegister : Params.p0.wf := by decide

theorem witness_StepRunsTheDecodedCommand :
    let s := offered State.reset [.command 0x102806];
    s.cmdReady = true ∧ s.nextEvent = .command 0x102806 ∧ decode 0x102806 = .ok (.read 0x28 6) :=
  ⟨rfl, rfl, by decide⟩

theorem witness_PendingEdgeIsServedBeforeACommand :
    let s := offered (pending .waitForDown []) [.command 0x800000];
    s.irqPending = true ∧ s.halted = false ∧ s.nextEvent = .command 0x800000 ∧
      (let q := offered (pending .waitForDown []) [.quiet];
        q.irqPending = true ∧ q.halted = false ∧ q.nextEvent = .quiet) ∧
      (let q := offered State.reset [.quiet]; q.irqPending = false ∧ q.halted = false ∧ q.nextEvent = .quiet) :=
  ⟨rfl, rfl, rfl, ⟨rfl, rfl, rfl⟩, rfl, rfl, rfl⟩

/-- A block that halted while servicing was armed, this event next. -/
def haltedBefore (e : Event) : State := offered { State.reset with irqEn := true, halted := true } [e]

theorem witness_HaltedBlockTakesOnlyLineAndReset :
    (haltedBefore .quiet).halted = true ∧ (haltedBefore .quiet).nextEvent = .quiet ∧
      (∃ t, step (haltedBefore (.line true)) = .next t) ∧ ∃ t, step (haltedBefore (.reset true)) = .next t :=
  ⟨rfl, rfl, ⟨_, rfl⟩, ⟨_, rfl⟩⟩

theorem witness_LineStepIsTheEdgeDetector :
    (offered { State.reset with irqEn := true } [.line true]).nextEvent = .line true ∧
      (haltedBefore (.line true)).nextEvent = .line true := ⟨rfl, rfl⟩

theorem witness_ResetStepGivesTheResetValues : (haltedBefore (.reset true)).nextEvent = .reset true := rfl

/-- T12 and T13. -/
theorem witness_WaitPointTimesOutAtTheBound :
    ((onBus [⟨99, true, 0⟩]).busAt 0).wait < State.reset.cfg.busTimeout ∧
      State.reset.cfg.busTimeout ≤ ((onBus [late]).busAt 0).wait := by decide +kernel

theorem witness_ReadDeliversTheBytes :
    (1 : Byte) ≠ 0 ∧ (onBus (reads [0x33])).ReadAcked 0 (1 : Byte).toNat ∧ (255 : Byte) ≠ 0 ∧
      (onBus (reads (List.replicate 255 7))).ReadAcked 0 (255 : Byte).toNat :=
  ⟨by decide, readAcked_of (by decide +kernel), by decide, readAcked_of (by decide +kernel)⟩

theorem witness_ReadThatFailsAnswersErrBus : (6 : Byte) ≠ 0 ∧ ¬ (onBus fails).ReadAcked 0 (6 : Byte).toNat :=
  ⟨by decide, not_readAcked_of rfl⟩

theorem failsFirstAt_of {s : State} {sends : List Nat} {k : Nat}
    (h : (∀ j < k, s.completesAt j ∧ (j ∈ sends → (s.busAt j).ack = true)) ∧
      ¬ (s.completesAt k ∧ (k ∈ sends → (s.busAt k).ack = true))) : s.FailsFirstAt sends k :=
  ⟨h.1, h.2⟩

/-- T7 (START times out), T5 (a NACK), T6 (a data byte) and a STOP that times out; T10 and a STOP of a WRITE. -/
theorem witness_FailedReadTraceIsCutShort :
    (onBus [late]).FailsFirstAt [1, 2, 4] 0 ∧ (onBus fails).FailsFirstAt [1, 2, 4] 1 ∧
      (onBus ((reads [1, 2]).take 7 ++ [late, ok])).FailsFirstAt [1, 2, 4] 7 ∧
      (onBus ((reads [1]).take 6 ++ [late])).FailsFirstAt [1, 2, 4] ((1 : Byte).toNat + 5) ∧
      (onBus [ok, ok, ok, nack, ok]).FailsFirstAt [1, 2, 3] 3 ∧ (onBus [ok, ok, ok, ok, late]).FailsFirstAt [1, 2, 3] 4 ∧
      ¬ (onBus fails).ReadAcked 0 1 ∧ ¬ (onBus fails).WriteAcked 0 :=
  ⟨failsFirstAt_of (by decide +kernel), failsFirstAt_of (by decide +kernel), failsFirstAt_of (by decide +kernel),
    failsFirstAt_of (by decide +kernel), failsFirstAt_of (by decide +kernel), failsFirstAt_of (by decide +kernel),
    not_readAcked_of rfl, fun h => absurd h.addrW (by decide +kernel)⟩

theorem witness_TransactionsEndWithinTheirWaitPoints : (1 : Byte) ≠ 0 ∧ (255 : Byte) ≠ 0 := by decide

theorem witness_WriteSendsTheByte : (onBus writes).WriteAcked 0 := writeAcked_of (by decide +kernel)

theorem witness_WriteThatFailsAnswersErrBus : ¬ (onBus [ok, ok, ok, nack, ok]).WriteAcked 0 := fun h =>
  absurd h.value (by decide +kernel)

theorem witness_InitFindsTheTarget :
    (State.reset.cfg.selfTest = false ∧ (onBus (reads [0x33])).ReadAcked 0 1 ∧
      ((onBus (reads [0x33])).busAt 5).byte = State.reset.cfg.idValue) ∧
    (let s := onBus (fails ++ reads [0x33]);
      let u := (probe s.cfg.addrPrimary s.enterForeground).2;
      s.cfg.selfTest = false ∧ ¬ s.ReadAcked 0 1 ∧ u.ReadAcked 0 1 ∧ (u.busAt 5).byte = s.cfg.idValue) :=
  ⟨⟨rfl, readAcked_of (by decide +kernel), by decide +kernel⟩,
    rfl, not_readAcked_of rfl, readAcked_of (by decide +kernel), by decide +kernel⟩

theorem witness_InitFatalCauses :
    ((onBus (reads [0x32])).cfg.selfTest = false ∧ (onBus (reads [0x32])).ReadAcked 0 1 ∧
      ((onBus (reads [0x32])).busAt 5).byte ≠ State.reset.cfg.idValue) ∧
    (let s := onBus (fails ++ reads [0]);
      let u := (probe s.cfg.addrPrimary s.enterForeground).2;
      s.cfg.selfTest = false ∧ ¬ s.ReadAcked 0 1 ∧ u.ReadAcked 0 1 ∧ (u.busAt 5).byte ≠ s.cfg.idValue) ∧
    (let s := onBus (fails ++ fails);
      let u := (probe s.cfg.addrPrimary s.enterForeground).2;
      s.cfg.selfTest = false ∧ ¬ s.ReadAcked 0 1 ∧ ¬ u.ReadAcked 0 1) :=
  ⟨⟨rfl, readAcked_of (by decide +kernel), by decide +kernel⟩,
    ⟨rfl, not_readAcked_of rfl, readAcked_of (by decide +kernel), by decide +kernel⟩,
    rfl, not_readAcked_of rfl, not_readAcked_of (by decide +kernel)⟩

theorem witness_InitWithSelfTestIsRefused :
    ({ State.reset with cfg := { Params.p0 with selfTest := true } } : State).cfg.selfTest = true := rfl

/-- Nine acknowledged WRITEs. -/
def nineWrites : List BusAnswer := (List.replicate 9 writes).flatten

theorem witness_EnableAppliesTheActiveProfile :
    (onBus nineWrites).ListAcked 0 (Params.p0.activeSoft ++ Params.p0.activeHard) := listAcked_of (by decide +kernel)

/-- The last hard write fails, and the first one. -/
theorem witness_EnableHardWriteFailureIsFatal :
    (2 < Params.p0.activeHard.length ∧
      (onBus (nineWrites.take 40 ++ fails)).ListAcked 0 (Params.p0.activeSoft ++ Params.p0.activeHard.take 2) ∧
      ¬ (onBus (nineWrites.take 40 ++ fails)).WriteAcked (5 * (Params.p0.activeSoft.length + 2))) ∧
    (0 < Params.p0.activeHard.length ∧
      (onBus (nineWrites.take 30 ++ fails)).ListAcked 0 (Params.p0.activeSoft ++ Params.p0.activeHard.take 0) ∧
      ¬ (onBus (nineWrites.take 30 ++ fails)).WriteAcked (5 * (Params.p0.activeSoft.length + 0))) :=
  ⟨⟨by decide, listAcked_of (by decide +kernel), fun h => absurd h.addrW (by decide +kernel)⟩,
    by decide, listAcked_of (by decide +kernel), fun h => absurd h.addrW (by decide +kernel)⟩

/-- N2's bus: the third soft write fails, the rest of the soft list and the hard list are acknowledged. -/
def softFailure : List BusAnswer := writes ++ writes ++ fails ++ (List.replicate 6 writes).flatten

/-- ENABLE's first actions. -/
def enabling (s : State) : State := { s.enterForeground with irqEn := false, irqPending := false }

theorem witness_EnableIgnoresSoftFailures :
    (applySoft Params.p0.activeSoft (enabling (onBus softFailure))).ListAcked 0 Params.p0.activeHard ∧
      ¬ (applySoft Params.p0.activeSoft (enabling (onBus (softFailure.take 33 ++ fails)))).ListAcked 0 Params.p0.activeHard ∧
      Params.p0.activeSoft = Params.p0.activeSoft.take 3 ++ Params.p0.activeSoft.drop 3 ∧
      (applySoft (Params.p0.activeSoft.take 3) (enabling (onBus softFailure))).ListAcked 0 (Params.p0.activeSoft.drop 3) :=
  ⟨listAcked_of (by decide +kernel), fun h => absurd (h 1 (by decide)).addrW (by decide +kernel), rfl,
    listAcked_of (by decide +kernel)⟩

/-- Every write acknowledged; and the first one failed, the other five acknowledged. -/
theorem witness_SleepArmsTheWakeMachine :
    (onBus nineWrites).ListAcked 0 (Params.p0.sleepList ++ (if Params.p0.wakeGestures then Params.p0.cfgWaitDown else [])) ∧
    (let start : State := { (onBus (fails ++ nineWrites)).enterForeground with fastCount := 0, slowCount := 0, depth := 0 };
      let rest := Params.p0.sleepList.drop 1 ++ Params.p0.cfgWaitDown;
      Params.p0.sleepList ++ (if Params.p0.wakeGestures then Params.p0.cfgWaitDown else []) =
        Params.p0.sleepList.take 1 ++ rest ∧ (applySoft (Params.p0.sleepList.take 1) start).ListAcked 0 rest) :=
  ⟨listAcked_of (by decide +kernel), rfl, listAcked_of (by decide +kernel)⟩

theorem witness_AxisValueIsTheShiftedRawValue : 8 ≤ 8 ∧ 8 ≤ 16 ∧ 16 ≤ 16 := by decide

/-- The smallest and the largest capture. -/
theorem witness_CaptureFillsTheBuffer :
    (let s := onBus (reads [0] ++ reads [1, 2, 3, 4, 5, 6]);
      s.ReadAcked 0 1 ∧ s.ReadAcked 7 (6 * fifoDepth (s.busAt 5).byte)) ∧
    (let s := onBus (reads [0x1F] ++ reads (List.replicate 192 1));
      s.ReadAcked 0 1 ∧ s.ReadAcked 7 (6 * fifoDepth (s.busAt 5).byte)) :=
  ⟨⟨readAcked_of (by decide +kernel), readAcked_of (by decide +kernel)⟩,
    readAcked_of (by decide +kernel), readAcked_of (by decide +kernel)⟩

/-- The first read fails, and the second. -/
theorem witness_CaptureFailureEmptiesTheBuffer :
    (let s := onBus fails;
      ¬ (s.ReadAcked 0 1 ∧ s.ReadAcked 7 (6 * fifoDepth (s.busAt 5).byte))) ∧
    (let s := onBus (reads [0] ++ fails);
      ¬ (s.ReadAcked 0 1 ∧ s.ReadAcked 7 (6 * fifoDepth (s.busAt 5).byte))) :=
  ⟨fun h => not_readAcked_of rfl h.1, fun h => not_readAcked_of (by decide +kernel) h.2⟩

theorem witness_ReadInstantAnswersTheThreeAxes :
    (onBus (reads [0, 5, 0, 0xFB, 0, 0x20])).ReadAcked 0 6 ∧ ¬ (onBus fails).ReadAcked 0 6 :=
  ⟨readAcked_of (by decide +kernel), not_readAcked_of rfl⟩

theorem witness_EmptyCaptureIsAccepted : State.reset.depth = 0 := rfl

/-- Two states with equal captures of depth 3 and different entries beyond. -/
theorem witness_ClassifierReadsOnlyTheCapturedSamples :
    let s : State := { captured (fun i => if i < 3 then ⟨1, 1, 1⟩ else ⟨9, 9, 9⟩) with depth := 3 };
    let t : State := { captured (fun _ => ⟨1, 1, 1⟩) with depth := 3 };
    s.cfg = t.cfg ∧ s.depth = t.depth ∧ (∀ i : Fin 32, i.val < s.depth.toNat → s.buf[i] = t.buf[i]) ∧ s.buf ≠ t.buf :=
  ⟨rfl, rfl, by decide +kernel, by decide +kernel⟩

theorem witness_CumulativeSumsStopAtTheLastSample :
    let s : State := { captured (fun _ => ⟨1, 1, 1⟩) with depth := 3 };
    s.depth ≠ 0 ∧ s.depth.toNat - 1 ≤ 31 ∧ s.depth.toNat - 1 ≤ 2 := by decide +kernel

theorem witness_ScoreIsTheDotProductOfTheCapture : (captured fun _ => ⟨1, 1, 1⟩).depth.toNat ≤ 32 := by decide

/-- The quantities that stages 2 to 8 look at: `sum_y[9]`, the most recent y, the slope, `sum_x[5]`, the two overshoots. -/
def stageInputs (s : State) : List Int :=
  [sumY s 9, (s.buf.toList.getD (s.depth.toNat - 1) ⟨0, 0, 0⟩).y, sumZ s 31 - sumZ s 20 - sumZ s 11, sumX s 5,
    sumY s 31 - sumY s 26, sumY s 31 - sumY s 22]

/-- A full capture of zeros but for the samples given by index. -/
def only (l : List (Nat × Sample)) : State := captured fun i => (l.lookup i).getD ⟨0, 0, 0⟩

/-- The score at 0 and at 1, with the rejecting flag set and clear. -/
theorem witness_DeliberatenessGuardStandsBetweenStages :
    (only []).depth ≠ 0 ∧ score (only []) = 0 ∧ score (only [(0, ⟨0, 0, 1⟩)]) = 1 ∧
      (only [(0, ⟨0, 0, 1⟩)]).cfg.ldaReject = false ∧
      (let s : State := { only [(0, ⟨0, 0, 1⟩)] with cfg := { Params.p0 with ldaReject := true } };
        s.depth ≠ 0 ∧ 0 < score s ∧ s.cfg.ldaReject = true) := by decide +kernel

/-- Each stage's condition met at its boundary and missed just below it, with the stages before it not met. -/
theorem witness_DeliberatenessGuardStandsBetweenStages_boundaries :
    stageInputs (only [(0, ⟨0, 240, 1⟩)]) = [240, 0, -1, 0, 0, 0] ∧
      stageInputs (only [(0, ⟨0, 239, 1⟩), (31, ⟨0, -6, 110⟩)]) = [239, -6, 109, 0, -6, -6] ∧
      stageInputs (only [(31, ⟨0, -5, 110⟩)]) = [0, -5, 110, 0, -5, -5] ∧
      stageInputs (only [(0, ⟨120, 0, 0⟩), (31, ⟨0, 0, 109⟩)]) = [0, 0, 109, 120, 0, 0] ∧
      stageInputs (only [(0, ⟨119, 22, 1⟩)]) = [22, 0, -1, 119, 0, 0] ∧
      stageInputs (only [(0, ⟨119, 21, 1⟩), (31, ⟨0, 4, 0⟩)]) = [21, 4, -1, 119, 4, 4] ∧
      stageInputs (only [(0, ⟨0, 0, 1⟩), (30, ⟨0, 18, 0⟩), (31, ⟨0, 3, 0⟩)]) = [0, 3, -1, 0, 21, 21] ∧
      stageInputs (only [(0, ⟨0, 0, 1⟩), (23, ⟨0, 21, 0⟩), (30, ⟨0, 20, 0⟩)]) = [0, 0, -1, 0, 20, 41] ∧
      stageInputs (only [(0, ⟨0, 0, 1⟩), (23, ⟨0, 20, 0⟩), (30, ⟨0, 20, 0⟩)]) = [0, 0, -1, 0, 20, 40] := by decide +kernel

/-- Every sample at the most negative value of 16 bits. -/
theorem witness_ClassifierSumsFitTheirWidths :
    let s : State := { captured (fun _ => ⟨-32768, -32768, -32768⟩) with cfg := { Params.p0 with sampleBits := 16 } };
    8 ≤ s.cfg.sampleBits ∧ s.cfg.sampleBits ≤ 16 ∧ ∀ i : Fin 32, (s.buf[i]).inRange s.cfg.sampleBits := by decide +kernel

/-- All three reads acknowledged; the first and the third failed; the second failed. -/
theorem witness_StatusPassGathersFlags :
    (let s := onBus (reads [0x60] ++ reads [0x48] ++ reads [0x54]);
      s.ReadAcked 0 1 ∧ s.ReadAcked 7 1 ∧ s.ReadAcked 14 1) ∧
    (let s := onBus (fails ++ reads [0x48] ++ fails);
      ¬ s.ReadAcked 0 1 ∧ (readInt1 s).ReadAcked 0 1 ∧ ¬ (readInt2 (readInt1 s)).ReadAcked 0 1) ∧
    (let s := onBus (reads [0x60] ++ fails ++ reads [0x54]);
      s.ReadAcked 0 1 ∧ ¬ (readInt1 s).ReadAcked 0 1 ∧ (readInt2 (readInt1 s)).ReadAcked 0 1) :=
  ⟨⟨readAcked_of (by decide +kernel), readAcked_of (by decide +kernel), readAcked_of (by decide +kernel)⟩,
    ⟨not_readAcked_of rfl, readAcked_of (by decide +kernel), not_readAcked_of (by decide +kernel)⟩,
    readAcked_of (by decide +kernel), not_readAcked_of (by decide +kernel), readAcked_of (by decide +kernel)⟩

/-- The line asserted, and no `Line` step at any of the 1001 samples. -/
def stuckLine : State := lines { State.reset with irqLine := true } (List.replicate 1001 [])

theorem stuckLine_silent : ∀ j ≤ 1000, stuckLine.lineStepsAt j = [] := by
  intro j hj
  show (List.replicate 1001 []).getD (0 + j) (Config.freeLine (0 + j)) = []
  rw [Nat.zero_add, List.getD_eq_getElem _ _ (by rw [List.length_replicate]; omega), List.getElem_replicate]

theorem witness_SpinWaitEndsByTheLineOrTheBound :
    (stuckLine.irqLine = true ∧ ∀ j ≤ 1000, ∀ l ∈ stuckLine.lineStepsAt j, l = true) ∧
    (((pending .waitForDown []).lineStepsAt 0).getLastD (pending .waitForDown []).irqLine = false) ∧
    (let s : State := { stuckLine with spinCount := 1000 };
      s.spinCount.toNat = 1000 ∧ (s.lineStepsAt 0).getLastD s.irqLine = true) ∧
    (let s : State := { pending .waitForDown [] with spinCount := 1000 };
      s.spinCount.toNat = 1000 ∧ (s.lineStepsAt 0).getLastD s.irqLine = false) ∧
    (let s : State := { stuckLine with spinCount := 999 };
      s.spinCount.toNat ≠ 1000 ∧ (s.lineStepsAt 0).getLastD s.irqLine = true) ∧
    (let s := pending .wakeByTurnUp [];
      (s.lineStepsAt 0).getLastD s.irqLine = false ∧ s.wakeState = .wakeByTurnUp) :=
  ⟨⟨rfl, fun j hj l hl => by rw [stuckLine_silent j hj] at hl; cases hl⟩, rfl, ⟨rfl, rfl⟩, ⟨rfl, rfl⟩, ⟨by decide, rfl⟩, rfl, rfl⟩

/-- W10, W3, W5, W6, W8, W11: a servicing pass for each row of the table. -/
theorem witness_ServiceFollowsTheTransitionTable :
    (service (pending .wakeByTurnUp (reads [0] ++ reads [0] ++ reads [0x54]))).clickFlags.active = true ∧
    (let t := service (pending .waitForDown (reads [0x45] ++ reads [0] ++ reads [0] ++ nineWrites));
      t.clickFlags.active = false) ∧
    (let t := service (pending .waitForUp (reads [0x60] ++ reads [0] ++ reads [0] ++ reads [0] ++
        reads [0, 0, 0, 0, 0, 0xFF] ++ nineWrites));
      t.clickFlags.active = false ∧ zyHigh t.int1Flags t.int2Flags = true ∧ (classify t).1 = .accept) ∧
    (let t := service (pending .waitForUp (reads [0x60] ++ reads [0] ++ reads [0] ++ reads [0] ++
        reads [0, 0, 0, 0, 0, 0x6E] ++ nineWrites));
      t.clickFlags.active = false ∧ zyHigh t.int1Flags t.int2Flags = true ∧ (classify t).1 = .reject) ∧
    (let t := service (pending .waitForUp (reads [0x42] ++ reads [0] ++ reads [0]));
      t.clickFlags.active = false ∧ zyHigh t.int1Flags t.int2Flags = false) ∧
    (service (pending .sleepStart (reads [0x60] ++ reads [0] ++ reads [0]))).clickFlags.active = false := by
  decide +kernel

/-- The line deasserted at the first sample: three acknowledged status reads, and three that fail. -/
theorem witness_ServiceFollowsTheTransitionTable_flags :
    (let s := pending .waitForDown (reads [0x60] ++ reads [0x48] ++ reads [0x54]);
      (s.lineStepsAt 0).getLastD s.irqLine = false ∧ s.ReadAcked 0 1 ∧ s.ReadAcked 7 1 ∧ s.ReadAcked 14 1) ∧
    (let s := pending .waitForDown (fails ++ fails ++ fails);
      let e : State := { s with ctx := .interrupt, int1Flags := .none, int2Flags := .none, clickFlags := .none };
      (s.lineStepsAt 0).getLastD s.irqLine = false ∧ ¬ e.ReadAcked 0 1 ∧ ¬ (readInt1 e).ReadAcked 0 1 ∧
        ¬ (readInt2 (readInt1 e)).ReadAcked 0 1) :=
  ⟨⟨rfl, readAcked_of (by decide +kernel), readAcked_of (by decide +kernel), readAcked_of (by decide +kernel)⟩,
    rfl, not_readAcked_of rfl, not_readAcked_of (by decide +kernel), not_readAcked_of (by decide +kernel)⟩

theorem witness_AdvanceWritesTheListOfItsRow :
    (let s : State := { State.reset with clickFlags := { ClickFlags.none with active := true } };
      s.clickFlags.active = true) ∧
    (let s : State := { onBus nineWrites with wakeState := .waitForDown };
      s.clickFlags.active = false ∧ s.wakeState = .waitForDown ∧ s.ListAcked 0 s.cfg.cfgWaitUp) ∧
    (let s : State := { State.reset with wakeState := .waitForUp };
      s.clickFlags.active = false ∧ s.wakeState = .waitForUp ∧ zyHigh s.int1Flags s.int2Flags = false) ∧
    (let s : State := { onBus (reads [0] ++ reads [0, 0, 0, 0, 0, 0xFF] ++ nineWrites) with
        wakeState := .waitForUp, int1Flags := { MotionFlags.none with zh := true } };
      s.clickFlags.active = false ∧ s.wakeState = .waitForUp ∧ zyHigh s.int1Flags s.int2Flags = true ∧
        (classify (capture s)).1 = .accept ∧ (capture s).ListAcked 0 s.cfg.cfgWakeAccept) ∧
    (let s : State := { onBus (reads [0] ++ reads [0, 0, 0, 0, 0, 0x6E] ++ nineWrites) with
        wakeState := .waitForUp, int2Flags := { MotionFlags.none with yh := true } };
      s.clickFlags.active = false ∧ s.wakeState = .waitForUp ∧ zyHigh s.int1Flags s.int2Flags = true ∧
        (classify (capture s)).1 = .reject ∧ (capture s).ListAcked 0 s.cfg.cfgWaitDown) ∧
    (State.reset.clickFlags.active = false ∧ State.reset.wakeState = .sleepStart) :=
  ⟨rfl, ⟨rfl, rfl, listAcked_of (by decide +kernel)⟩, ⟨rfl, rfl, rfl⟩,
    ⟨rfl, rfl, rfl, by decide +kernel, listAcked_of (by decide +kernel)⟩,
    ⟨rfl, rfl, rfl, by decide +kernel, listAcked_of (by decide +kernel)⟩, rfl, rfl⟩

/-- An edge between the entry and the first sample, an edge at the second sample, and none. -/
theorem witness_EdgeDuringServiceIsKept :
    (let s := lines { pending .waitForDown [] with irqLine := false } [[true, false]];
      s.irqEn = true ∧ [false, true] <:+: s.irqLine :: (List.range 1).flatMap s.lineStepsAt) ∧
    (let s := lines (pending .waitForDown []) [[], [false, true, false]];
      s.irqEn = true ∧ [false, true] <:+: s.irqLine :: (List.range 2).flatMap s.lineStepsAt) ∧
    (let s := pending .waitForDown [];
      ¬ [false, true] <:+: s.irqLine :: (List.range 1).flatMap s.lineStepsAt) := by decide +kernel

/-- A SLEEP, a servicing pass and a `Reset` that change the wake state. -/
theorem witness_WakeStateChangesOnlyInItsOwnSteps :
    nextHas (step (offered (onBus nineWrites) [.command 0x600000])) (fun t => t.wakeState != .sleepStart) = true ∧
    nextHas (step (pending .waitForDown (reads [0x45] ++ reads [0] ++ reads [0] ++ nineWrites)))
      (fun t => t.wakeState != .waitForDown) = true ∧
    nextHas (step (offered { State.reset with wakeState := .waitForUp } [.reset false]))
      (fun t => t.wakeState != .waitForUp) = true := by decide +kernel

theorem witness_WakeupCheckAnswersTheQuery :
    ({ State.reset with wakeState := .wakeByTurnUp } : State).wakeState = .wakeByTurnUp ∧
      State.reset.wakeState = .sleepStart ∧
      (let s : State := { onBus (reads [0, 0, 0, 0, 0, 0x14]) with wakeState := .wakeByClick };
        s.wakeState = .wakeByClick ∧ s.ReadAcked 0 6) :=
  ⟨rfl, rfl, rfl, readAcked_of (by decide +kernel)⟩

/-- A poll of which every answer is written out: z = 32, the line as given, the clock at `now`. -/
def poll (now : Time) (line : Bool) (more : List BusAnswer) : State :=
  lines (clock (onBus (reads [0, 0, 0, 0, 0, 0x20] ++ more)) now) [[line]]

/-- B4 and its neighbour B3: both windows at 401 ms, neither at 400 ms; no click counted. -/
theorem witness_WindowsEndAfterTheirTime :
    nextHas (exec .eventFlags { poll 1401 false [] with fastCount := 1, slowCount := 1, lastClickMs := 1000 })
      (fun t => answered t ⟨.ok, 1, []⟩) = true ∧
    nextHas (exec .eventFlags { poll 1400 false [] with fastCount := 1, slowCount := 1, lastClickMs := 1000 })
      (fun t => answered t ⟨.ok, 0, []⟩) = true := by decide +kernel

/-- B8: both windows end in one poll, which counts no click. -/
theorem witness_WindowEndIsReportedOnce :
    ∃ t, exec .eventFlags { poll 3000 false [] with fastCount := 1, slowCount := 1, lastClickMs := 1000 } = .next t ∧
      t.responses = [] ++ [⟨.ok, 3, []⟩] ∧ (3 : Byte).getLsbD 2 = false :=
  ⟨_, rfl, by decide +kernel, by decide⟩

/-- H3 (z = -21, below), H5 (z = -20, not below), H7 (the read fails). -/
theorem witness_SustainedDownIsTimed :
    (let s := onBus (reads [0, 0, 0, 0, 0, 0xEB]);
      s.ReadAcked 0 6 ∧ (sampleAt s.cfg.sampleBits (s.answers 0 6) 0).z < s.cfg.zDownThreshold) ∧
    (let s := onBus (reads [0, 0, 0, 0, 0, 0xEC]);
      s.ReadAcked 0 6 ∧ s.cfg.zDownThreshold ≤ (sampleAt s.cfg.sampleBits (s.answers 0 6) 0).z) ∧
    ¬ (onBus fails).ReadAcked 0 6 :=
  ⟨⟨readAcked_of (by decide +kernel), by decide +kernel⟩, ⟨readAcked_of (by decide +kernel), by decide +kernel⟩,
    not_readAcked_of rfl⟩

/-- The bus answers left for the click read of a poll. -/
def beforeClick (s : State) : State := (instant (expireWindows (s.clockAt 0) s.enterForeground.sampleClock)).2

/-- B1 (counts), B12 (the wrong axis), B15 (the read fails), B2 (the latch is set), B3 (deasserted). -/
theorem witness_ClickIsCountedOncePerAssertion :
    (let s := poll 1000 true (reads [0x54]);
      s.ReadAcked 0 6 ∧ (s.lineStepsAt 0).getLastD s.irqLine = true ∧ s.clickSeen = false ∧ (beforeClick s).ReadAcked 0 1 ∧
        qualifying s.cfg.clickAxis (decodeClick s.cfg.clickLayout ((beforeClick s).busAt 5).byte) = true) ∧
    (let s := poll 1000 true (reads [0x51]);
      (s.lineStepsAt 0).getLastD s.irqLine = true ∧ s.clickSeen = false ∧ (beforeClick s).ReadAcked 0 1 ∧
        qualifying s.cfg.clickAxis (decodeClick s.cfg.clickLayout ((beforeClick s).busAt 5).byte) = false) ∧
    (let s := poll 1000 true fails;
      (s.lineStepsAt 0).getLastD s.irqLine = true ∧ s.clickSeen = false ∧ ¬ (beforeClick s).ReadAcked 0 1) ∧
    (let s : State := { poll 1100 true [] with clickSeen := true };
      (s.lineStepsAt 0).getLastD s.irqLine = true ∧ s.clickSeen = true) ∧
    (let s := poll 1400 false [];
      (s.lineStepsAt 0).getLastD s.irqLine = false) :=
  ⟨⟨readAcked_of (by decide +kernel), rfl, rfl, readAcked_of (by decide +kernel), by decide +kernel⟩,
    ⟨rfl, rfl, readAcked_of (by decide +kernel), by decide +kernel⟩,
    ⟨rfl, rfl, not_readAcked_of (by decide +kernel)⟩, ⟨rfl, rfl⟩, rfl⟩

theorem witness_EventsClearZeroesTheCounters : ∃ t, exec .eventsClear State.reset = .next t := ⟨_, rfl⟩

theorem witness_InvariantsHoldAtReset : Params.p0.wf := by decide

/-- A state that meets the invariants, and a step from it. -/
theorem witness_EveryStepKeepsTheInvariants :
    (offered State.reset [.command 0xA00000]).Inv ∧ ∃ t, step (offered State.reset [.command 0xA00000]) = .next t :=
  ⟨⟨by decide, by decide, rfl, rfl, by decide, by decide, by decide, by decide, by decide, by decide, by decide +kernel,
    by decide⟩, _, rfl⟩

/-- The block with the self-test built in, INIT next. -/
def selfTestBlock : State := offered { State.reset with cfg := { Params.p0 with selfTest := true } } [.command 0x400000]

/-- A safe state that steps, and the safe state whose INIT is refused. -/
theorem witness_SafeBlockAlwaysSteps :
    ((offered State.reset [.command 0xA00000]).Safe ∧ State.reset.cfg.selfTest = false) ∧
    (selfTestBlock.Safe ∧ selfTestBlock.cfg.selfTest = true ∧ selfTestBlock.irqPending = false ∧
      selfTestBlock.nextEvent = .command 0x400000 ∧ decode 0x400000 = .ok .init) ∧
    step selfTestBlock = .refused .selfTestBuiltIn :=
  ⟨⟨⟨witness_EveryStepKeepsTheInvariants.1, rfl⟩, rfl⟩,
    ⟨⟨⟨by decide, by decide, rfl, rfl, by decide, by decide, by decide, by decide, by decide, by decide, by decide +kernel,
      by decide⟩, rfl⟩, rfl, rfl, rfl, by decide⟩, by rfl⟩

/-- An INIT and an ENABLE that halt the block. -/
theorem witness_OnlyInitAndEnableHalt :
    nextHas (step (offered (onBus (fails ++ fails)) [.command 0x400000])) (fun t => t.halted) = true ∧
      nextHas (step (offered (onBus (nineWrites.take 30 ++ fails)) [.command 0x500000])) (fun t => t.halted) = true := by
  decide +kernel

theorem witness_EveryCommandIsAnsweredOnce :
    let s := offered State.reset [.command 0xA00000];
    s.cmdReady = true ∧ s.nextEvent = .command 0xA00000 ∧ ∃ t, step s = .next t :=
  ⟨rfl, rfl, _, rfl⟩

theorem witness_ParametersNeverChangeAndRecordsGrow : ∃ t, step (offered State.reset [.command 0xA00000]) = .next t :=
  ⟨_, rfl⟩

end Sys2Proof.Tests
end

section
/-! SUPPORT. A command word on its way to its command (00_scope.md R10, 70_reset_and_hazards.md R293): the step offers the word,
a ready port takes it, and a word that decodes is run. -/

namespace Sys2Proof.Machine

theorem step_of_nextEvent_command {s : State} {w : CmdWord} (hw : s.nextEvent = .command w) : step s = offerWord w s := by
  simp only [step, hw]

theorem offerWord_of_cmdReady {s : State} (w : CmdWord) (hr : s.cmdReady = true) :
    offerWord w s = runWord w s.takeEvent :=
  if_pos hr

theorem runWord_of_decode_ok {w : CmdWord} {i : Instr} (hd : decode w = .ok i) (s : State) : runWord w s = exec i s := by
  simp only [runWord, hd]

/-- Settles O7: the word is offered, taken because the port is ready, and run because it decodes. -/
theorem stepRunsTheDecodedCommand : Obligations.StepRunsTheDecodedCommand := by
  intro s w i hr hw hd
  calc step s = offerWord w s := step_of_nextEvent_command hw
    _ = runWord w s.takeEvent := offerWord_of_cmdReady w hr
    _ = exec i s.takeEvent := runWord_of_decode_ok hd s.takeEvent

end Sys2Proof.Machine
end

section
/-! SUPPORT. The invariants of 10_state.md R44 along a step: each shared operation keeps all of them but the idle context, which
the end of the operation brings back, and so every kind of step keeps them whole. -/

namespace Sys2Proof.Machine

variable {s t : State}

/-- The invariants as they hold inside an operation: all of `State.Inv` but that `ctx` is idle (10_state.md R40, R44b). -/
def State.InvButCtx (s : State) : Prop := s.leaveService.Inv

/-! ## Beginning and ending an operation -/

theorem State.Inv.takeEvent (h : s.Inv) : s.takeEvent.Inv := { h with }

theorem State.Inv.enterForeground (h : s.Inv) : s.enterForeground.InvButCtx := { h with ctx := rfl }

theorem State.Inv.enterService (h : s.Inv) : s.enterService.InvButCtx := { h with ctx := rfl }

theorem State.InvButCtx.leaveService (h : s.InvButCtx) : s.leaveService.Inv := h

theorem State.InvButCtx.respond (h : s.InvButCtx) (st : Status) (v : Byte) (d : List Byte) : (s.respond st v d).Inv :=
  { h with }

/-- A fatal termination leaves the invariants when its code is that of one of the three causes (60_exceptions.md R253). -/
theorem State.InvButCtx.raiseFatal (h : s.InvButCtx) {code : Nat}
    (hc : code = s.cfg.fatalDiscovery ∨ code = s.cfg.fatalIdentity ∨ code = s.cfg.fatalConfig) : (s.raiseFatal code).Inv :=
  { h with tphase := rfl, fatal := fun _ => ⟨rfl, hc⟩ }

/-! ## The transport -/

/-- What the transport changes breaks no invariant once it is idle again with its counter in bounds (10_state.md R22, R44b). -/
theorem State.InvButCtx.of_transportOnly (h : s.InvButCtx) (hf : TransportOnly s t) (hp : t.tphase = .idle)
    (hc : t.tcount ≤ s.cfg.busTimeout) : t.InvButCtx := by
  rw [hf.eq_update]
  exact { h with tphase := hp, tcount := hc }

theorem busRead_tcount_le (r : RegNum) (n : Nat) (s : State) : (busRead r n s).2.tcount ≤ s.cfg.busTimeout := by
  have h := transaction_tcount_le _ (readParts_local s.cfg s.busAddr r n) s
  unfold busRead; dsimp only
  split <;> exact h

theorem State.InvButCtx.busRead (h : s.InvButCtx) (r : RegNum) (n : Nat) : (busRead r n s).2.InvButCtx :=
  h.of_transportOnly (busRead_transportOnly r n s) (busRead_tphase r n s) (busRead_tcount_le r n s)

theorem State.InvButCtx.busWrite (h : s.InvButCtx) (r : RegNum) (v : Byte) : (busWrite r v s).2.InvButCtx :=
  h.of_transportOnly (busWrite_transportOnly r v s) (busWrite_tphase r v s)
    (transaction_tcount_le _ (writeParts_local s.busAddr r v) s)

theorem State.InvButCtx.applySoft (l : WriteList) (h : s.InvButCtx) : (applySoft l s).InvButCtx := by
  induction l generalizing s with
  | nil => exact h
  | cons w l ih => exact ih (h.busWrite w.1 w.2)

theorem State.InvButCtx.applyHard (l : WriteList) (h : s.InvButCtx) : (applyHard l s).2.InvButCtx := by
  induction l generalizing s with
  | nil => exact h
  | cons w l ih =>
    unfold Machine.applyHard
    split
    · exact ih (h.busWrite w.1 w.2)
    · exact h.busWrite w.1 w.2

theorem State.InvButCtx.instant (h : s.InvButCtx) : (instant s).2.InvButCtx := h.busRead _ _

/-! ## The line -/

/-- A `Line` step records an edge only while servicing is armed (43_wake_sequencer.md R180, 10_state.md R44c). -/
theorem State.Inv.lineStep (h : s.Inv) (level : Bool) : (lineStep level s).Inv :=
  { h with
    pending := fun hp => by
      rw [lineStep_irqPending, Bool.or_eq_true, Bool.and_eq_true] at hp
      exact hp.elim h.pending And.right }

theorem State.InvButCtx.sampleLine (h : s.InvButCtx) : (sampleLine s).InvButCtx := by
  have hp : (Machine.sampleLine s).irqPending = true → s.irqEn = true :=
    fun hp => ((sampleLine_pending s).2 hp).elim h.pending id
  rw [(sampleLine_lineOnly s).eq_update]
  exact { h with pending := hp }

/-! ## The Capture Buffer -/

/-- The top `SAMPLE_BITS` bits of a raw value are in the range of R25 (20_memory.md R64). -/
theorem axisValue_inRange (n : Nat) (lo hi : Byte) : axisInRange n (axisValue n lo hi) :=
  ⟨BitVec.le_toInt _, BitVec.toInt_lt⟩

theorem sampleAt_inRange (n : Nat) (bytes : List Byte) (i : Nat) : (sampleAt n bytes i).inRange n :=
  ⟨axisValue_inRange _ _ _, axisValue_inRange _ _ _, axisValue_inRange _ _ _⟩

theorem fifoDepth_le (b : Byte) : fifoDepth b ≤ bufMax := by
  have h : (b &&& fifoIdxMask).toNat ≤ fifoIdxMask.toNat := BitVec.toNat_and .. ▸ Nat.and_le_right
  exact Nat.succ_le_succ h

theorem storeSamples_inRange (sampleBits : Nat) (bytes : List Byte) (n : Nat) {old : Vector Sample 32}
    (ho : ∀ i : Fin 32, (old[i]).inRange sampleBits) (i : Fin 32) :
    ((storeSamples sampleBits bytes n old)[i]).inRange sampleBits := by
  simp only [storeSamples, Fin.getElem_fin, Vector.getElem_ofFn]
  split
  · exact sampleAt_inRange _ _ _
  · exact ho i

/-- A capture that failed (42_capture_classifier.md R150), or a SLEEP, leaves the Capture Buffer empty. -/
theorem State.InvButCtx.clearDepth (h : s.InvButCtx) : { s with depth := 0 }.InvButCtx := { h with depth := Nat.zero_le _ }

theorem State.InvButCtx.setCapture (h : s.InvButCtx) {b : Vector Sample 32} {d : BitVec 6}
    (hb : ∀ i : Fin 32, (b[i]).inRange s.cfg.sampleBits) (hd : d.toNat ≤ bufMax) :
    { s with buf := b, depth := d }.InvButCtx :=
  { h with depth := hd, samples := hb }

/-- A capture of at most 32 samples keeps depth and samples in bounds (10_state.md R25, R44a). -/
theorem State.InvButCtx.captureBlocks (h : s.InvButCtx) {n : Nat} (hn : n ≤ bufMax) : (captureBlocks n s).InvButCtx := by
  have hb := h.busRead s.cfg.regOut (bytesPerSample * n)
  have hd : (BitVec.ofNat 6 n).toNat ≤ bufMax := by
    rw [BitVec.toNat_ofNat]
    exact (Nat.mod_le n _).trans hn
  unfold Machine.captureBlocks; dsimp only
  split
  · refine hb.setCapture ?_ hd
    rw [busRead_cfg, busRead_buf]
    exact storeSamples_inRange _ _ _ h.samples
  · exact hb.clearDepth

theorem State.InvButCtx.capture (h : s.InvButCtx) : (capture s).InvButCtx := by
  have hb := h.busRead s.cfg.regFifoSrc 1
  unfold Machine.capture; dsimp only
  split
  · exact hb.captureBlocks (fifoDepth_le _)
  · exact hb.clearDepth

/-! ## The wake machine -/

/-- With wake gestures off the machine never waits (10_state.md R44d, 41_device_config.md R132). -/
theorem State.InvButCtx.wakeGestures_of_waiting (h : s.InvButCtx)
    (hw : s.wakeState = .waitForDown ∨ s.wakeState = .waitForUp) : s.cfg.wakeGestures = true := by
  by_contra hg
  rcases h.unarmed (Bool.eq_false_of_not_eq_true hg) with hs | hs <;> rcases hw with hw | hw <;>
    exact WakeState.noConfusion (hs.symm.trans hw)

/-- A wake state other than `SleepStart` keeps the invariants where wake gestures are on. -/
theorem State.InvButCtx.setWakeState (h : s.InvButCtx) (hg : s.cfg.wakeGestures = true) {w : WakeState}
    (hw : w ≠ .sleepStart) : { s with wakeState := w }.InvButCtx :=
  { h with
    armed := fun _ _ => hw
    unarmed := fun hn => Bool.noConfusion (hg.symm.trans hn) }

/-- A click wakes the machine, wake gestures on or off (43_wake_sequencer.md R185, R192). -/
theorem State.InvButCtx.wakeByClick (h : s.InvButCtx) : { s with wakeState := .wakeByClick }.InvButCtx :=
  { h with
    armed := fun _ _ => WakeState.noConfusion
    unarmed := fun _ => .inr rfl }

theorem State.InvButCtx.advanceUp (h : s.InvButCtx) (hg : s.cfg.wakeGestures = true) : (advanceUp s).InvButCtx := by
  have hg' : (Machine.capture s).cfg.wakeGestures = true := by rwa [(capture_captureOnly s).cfg]
  unfold Machine.advanceUp; dsimp only
  split <;> exact (h.capture.applySoft _).setWakeState (by rwa [applySoft_cfg]) WakeState.noConfusion

theorem State.InvButCtx.advance (h : s.InvButCtx) : (advance s).InvButCtx := by
  unfold Machine.advance
  split
  · exact h.wakeByClick
  · split
    case _ hw =>
      have hg := h.wakeGestures_of_waiting (.inl hw)
      exact (h.applySoft _).setWakeState (by rwa [applySoft_cfg]) WakeState.noConfusion
    case _ hw =>
      have hg := h.wakeGestures_of_waiting (.inr hw)
      split
      · exact h.advanceUp hg
      · exact h.setWakeState hg WakeState.noConfusion
    all_goals exact h

/-! ## SERVICE -/

theorem State.InvButCtx.readInt1 (h : s.InvButCtx) : (readInt1 s).InvButCtx := by
  have hb := h.busRead s.cfg.regInt1Src 1
  unfold Machine.readInt1; dsimp only
  split
  · exact { hb with }
  · exact hb

theorem State.InvButCtx.readInt2 (h : s.InvButCtx) : (readInt2 s).InvButCtx := by
  have hb := h.busRead s.cfg.regInt2Src 1
  unfold Machine.readInt2; dsimp only
  split
  · exact { hb with }
  · exact hb

theorem State.InvButCtx.readClick (h : s.InvButCtx) : (readClick s).InvButCtx := by
  have hb := h.busRead s.cfg.regClickSrc 1
  unfold Machine.readClick; dsimp only
  split
  · exact { hb with }
  · exact hb

theorem State.InvButCtx.statusPass (h : s.InvButCtx) : (statusPass s).InvButCtx := h.readInt1.readInt2.readClick

/-- SERVICE clears the pending bit and the counter before its spin-wait (43_wake_sequencer.md R181). -/
theorem State.Inv.serviceStart (h : s.Inv) : (serviceStart s).InvButCtx :=
  { h.enterService.statusPass with
    pending := fun hp => Bool.noConfusion hp
    spinCount := Nat.zero_le _ }

/-- A re-read pass below the bound counts at most up to it (10_state.md R36). -/
theorem State.InvButCtx.rereadPass (h : s.InvButCtx) (hb : s.spinCount.toNat ≠ spinMax) : (rereadPass s).InvButCtx := by
  have hl : s.spinCount.toNat ≤ spinMax := h.spinCount
  have hc : (s.spinCount + 1).toNat ≤ spinMax := by
    rw [BitVec.toNat_add]
    exact (Nat.mod_le _ _).trans (Nat.lt_of_le_of_ne hl hb)
  exact State.InvButCtx.statusPass { h with spinCount := hc }

theorem State.InvButCtx.spinWait (k : Nat) (h : s.InvButCtx) : (spinWait k s).InvButCtx := by
  induction k generalizing s with
  | zero => exact h
  | succ k ih =>
    unfold Machine.spinWait; dsimp only
    split
    · split
      · exact h.sampleLine.applySoft _
      · next hb => exact ih (h.sampleLine.rereadPass hb)
    · exact h.sampleLine

theorem State.Inv.service (h : s.Inv) : (service s).Inv := by
  rw [service_eq]
  exact (h.serviceStart.spinWait _).advance.leaveService

/-! ## A poll (44_click_debounce.md) -/

theorem State.InvButCtx.updateDownLatch (h : s.InvButCtx) (now : Time) (v : Option Sample) :
    (updateDownLatch now v s).InvButCtx := by
  unfold Machine.updateDownLatch
  split
  · split
    · split
      · exact h
      · exact { h with }
    · exact { h with }
  · exact h

theorem State.InvButCtx.takeClick (h : s.InvButCtx) (now : Time) (f : ClickFlags) : (takeClick now f s).2.InvButCtx := by
  unfold Machine.takeClick
  split <;> exact { h with }

theorem State.InvButCtx.pollClick (h : s.InvButCtx) (now : Time) : (pollClick now s).2.InvButCtx := by
  have hl := h.sampleLine
  unfold Machine.pollClick; dsimp only
  split
  · split
    · exact hl
    · split
      · exact (hl.busRead _ 1).takeClick now _
      · exact hl.busRead _ 1
  · exact { hl with }

theorem State.Inv.pollExpired (h : s.Inv) : (pollExpired s).InvButCtx := { h.enterForeground with }

theorem State.Inv.pollOriented (h : s.Inv) : (pollOriented s).InvButCtx := h.pollExpired.instant.updateDownLatch _ _

/-! ## Every command -/

theorem State.InvButCtx.setBusAddr (h : s.InvButCtx) {a : BusAddr} (ha : a = s.cfg.addrPrimary ∨ a = s.cfg.addrSecondary) :
    { s with busAddr := a }.InvButCtx := { h with busAddr := ha }

theorem State.InvButCtx.clearCounts (h : s.InvButCtx) : { s with fastCount := 0, slowCount := 0 }.InvButCtx := { h with }

theorem State.InvButCtx.probe (h : s.InvButCtx) {a : BusAddr} (ha : a = s.cfg.addrPrimary ∨ a = s.cfg.addrSecondary) :
    (probe a s).2.InvButCtx :=
  (h.setBusAddr ha).busRead _ _

theorem State.InvButCtx.checkIdentity (h : s.InvButCtx) (v : Byte) : (checkIdentity v s).Inv := by
  unfold Machine.checkIdentity
  split
  · exact h.respond _ _ _
  · exact h.raiseFatal (.inr (.inl rfl))

theorem probe_cfg (a : BusAddr) (s : State) : (probe a s).2.cfg = s.cfg := busRead_cfg _ _ _

theorem State.InvButCtx.initBody (h : s.InvButCtx) : (initBody s).Inv := by
  have hp := h.probe (.inl rfl)
  have hq := hp.probe (a := s.cfg.addrSecondary) (.inr (by rw [probe_cfg]))
  unfold Machine.initBody; dsimp only
  split
  · exact hp.checkIdentity _
  · split
    · exact hq.checkIdentity _
    · exact hq.raiseFatal (.inl (by rw [probe_cfg, probe_cfg]))

theorem State.Inv.execInit (h : s.Inv) (he : execInit s = .next t) : t.Inv := by
  unfold Machine.execInit at he
  split at he
  · cases he
  · cases he; exact h.enterForeground.initBody

/-- ENABLE disarms servicing and drops a pending edge before it writes its lists (41_device_config.md R131). -/
theorem State.InvButCtx.disarm (h : s.InvButCtx) : { s with irqEn := false, irqPending := false }.InvButCtx :=
  { h with
    pending := fun hp => Bool.noConfusion hp
    armed := fun he => Bool.noConfusion he }

theorem State.Inv.execEnable (h : s.Inv) (he : execEnable s = .next t) : t.Inv := by
  have hh := (h.enterForeground.disarm.applySoft s.cfg.activeSoft).applyHard s.cfg.activeHard
  cases he; dsimp only
  split
  · exact hh.respond _ _ _
  · refine hh.raiseFatal (.inr (.inr ?_))
    rw [applyHard_cfg, applySoft_cfg]; rfl

/-- SLEEP arms servicing only with the wake machine out of `SleepStart`, or with wake gestures off (41_device_config.md R132). -/
theorem State.InvButCtx.armWake (h : s.InvButCtx) : { armWake s with irqEn := true }.InvButCtx := by
  unfold Machine.armWake
  split
  · next hg =>
    have hw := (h.applySoft s.cfg.cfgWaitDown).setWakeState (w := .waitForDown) (by rwa [applySoft_cfg]) WakeState.noConfusion
    exact { hw with pending := fun _ => rfl, armed := fun _ _ => WakeState.noConfusion }
  · next hg =>
    exact { h with
      pending := fun _ => rfl
      armed := fun _ hn => absurd hn hg
      unarmed := fun _ => .inl rfl }

theorem State.Inv.execSleep (h : s.Inv) (he : execSleep s = .next t) : t.Inv := by
  cases he
  exact (h.enterForeground.clearCounts.clearDepth.applySoft s.cfg.sleepList).armWake.respond _ _ _

theorem State.Inv.answerIllegal (h : s.Inv) : (answerIllegal s).Inv := h.enterForeground.respond _ _ _

theorem State.Inv.execRead (h : s.Inv) {r : RegNum} {n : Byte} (he : execRead r n s = .next t) : t.Inv := by
  have hb := h.enterForeground.busRead r n.toNat
  cases he; dsimp only
  split
  · exact h.answerIllegal
  · split <;> exact hb.respond _ _ _

theorem State.Inv.execSetaddr (h : s.Inv) {b : BitVec 1} (he : execSetaddr b s = .next t) : t.Inv := by
  have ha : candidateAddr s.cfg b = s.cfg.addrPrimary ∨ candidateAddr s.cfg b = s.cfg.addrSecondary := by
    unfold candidateAddr; split
    · exact .inr rfl
    · exact .inl rfl
  cases he
  exact (h.enterForeground.setBusAddr ha).respond _ _ _

theorem State.Inv.execReadInstant (h : s.Inv) (he : execReadInstant s = .next t) : t.Inv := by
  have hi := h.enterForeground.instant
  cases he; dsimp only
  split <;> exact hi.respond _ _ _

theorem State.Inv.execWakeupCheck (h : s.Inv) (he : execWakeupCheck s = .next t) : t.Inv := by
  have hf := h.enterForeground
  cases he
  split
  case _ => exact hf.respond _ _ _
  case _ => exact hf.instant.respond _ _ _
  all_goals exact hf.respond _ _ _

theorem State.Inv.execEventFlags (h : s.Inv) (he : exec .eventFlags s = .next t) : t.Inv := by
  rw [execEventFlags_eq] at he
  cases he
  exact (h.pollOriented.pollClick _).respond _ _ _

theorem State.Inv.execEventsClear (h : s.Inv) (he : execEventsClear s = .next t) : t.Inv := by
  cases he
  exact h.enterForeground.clearCounts.respond _ _ _

/-- Every command keeps the invariants. -/
theorem State.Inv.exec (h : s.Inv) {i : Instr} (he : exec i s = .next t) : t.Inv := by
  cases i with
  | read r n => exact h.execRead he
  | write r v => cases he; exact (h.enterForeground.busWrite r v).respond _ _ _
  | setaddr b => exact h.execSetaddr he
  | init => exact h.execInit he
  | enable => exact h.execEnable he
  | sleep => exact h.execSleep he
  | readInstant => exact h.execReadInstant he
  | wakeupCheck => exact h.execWakeupCheck he
  | eventFlags => exact h.execEventFlags he
  | eventsClear => exact h.execEventsClear he

/-! ## Reset -/

/-- The state after reset meets the invariants: everything is cleared, and the parameters meet their constraints. -/
theorem resetWith_inv (p : Params) (level : Bool) (hp : p.wf) : (State.resetWith p level).Inv where
  params := hp
  depth := Nat.zero_le _
  tphase := rfl
  ctx := rfl
  pending hn := Bool.noConfusion hn
  armed hn := Bool.noConfusion hn
  unarmed _ := .inl rfl
  busAddr := .inl rfl
  tcount := Nat.zero_le _
  spinCount := Nat.zero_le _
  samples i := by
    have h0 : axisInRange p.sampleBits 0 := ⟨neg_nonpos.2 (by positivity), by positivity⟩
    simp only [State.resetWith, Fin.getElem_fin, Vector.getElem_replicate]
    exact ⟨h0, h0, h0⟩
  fatal hn := Bool.noConfusion hn

theorem State.Inv.resetStep (h : s.Inv) (level : Bool) : (resetStep level s).Inv :=
  { resetWith_inv s.cfg level h.params with }

/-- Settles O54: the cleared registers meet every clause, and `P0` meets the constraints. -/
theorem invariantsHoldAtReset : Obligations.InvariantsHoldAtReset :=
  ⟨resetWith_inv, resetWith_inv Params.p0 false (by decide)⟩

/-- Settles O55, by the seven ways a step answers a next state. -/
theorem everyStepKeepsTheInvariants : Obligations.EveryStepKeepsTheInvariants := by
  intro s t h hst
  obtain ⟨l, -, rfl⟩ | ⟨l, -, rfl⟩ | ⟨w, i, -, -, -, he⟩ | ⟨w, e, -, -, -, rfl⟩ | ⟨w, -, -, -, -, rfl⟩ | ⟨-, -, -, rfl⟩ |
    ⟨-, -, rfl⟩ := step_cases hst
  · exact h.takeEvent.lineStep l
  · exact h.takeEvent.resetStep l
  · exact h.takeEvent.exec he
  · exact h.takeEvent.answerIllegal
  · exact h.service
  · exact h.takeEvent.service
  · exact h.takeEvent

end Sys2Proof.Machine
end

section
/-! SUPPORT. Register contents that 10_state.md R42 calls unspecified are never read (93_implementation_defined.md U8): every
operation takes two states that differ in nothing else to the same answer and to two such states. -/

namespace Sys2Proof.Machine

variable {s t : State}

/-- The two states differ in nothing but contents that 10_state.md R42 calls unspecified. -/
def Alike (s t : State) : Prop := s.scrub = t.scrub

/-- An operation that answers, and lets nothing unspecified reach its answer or the rest of the state. -/
def Blind {α : Type} (f : State → α × State) : Prop := ∀ ⦃s t⦄, Alike s t → (f s).1 = (f t).1 ∧ Alike (f s).2 (f t).2

/-! ## Arrays specified below a bound -/

section KeepBelow

variable {α : Type} {m : Nat}

/-- The entries of `v` below `n`, the others at `z`. -/
def keepBelow (n : Nat) (z : α) (v : Vector α m) : Vector α m := Vector.ofFn fun i => if i.val < n then v[i] else z

theorem keepBelow_getElem (n : Nat) (z : α) (v : Vector α m) (i : Nat) (hi : i < m) :
    (keepBelow n z v)[i] = if i < n then v[i] else z := by
  simp [keepBelow]

/-- Two arrays that agree below the bound keep the same entries. -/
theorem keepBelow_congr {n : Nat} {z : α} {v w : Vector α m} (h : ∀ (i : Nat) (hi : i < m), i < n → v[i] = w[i]) :
    keepBelow n z v = keepBelow n z w := by
  ext i hi
  rw [keepBelow_getElem, keepBelow_getElem]
  split
  · next hn => exact h i hi hn
  · rfl

@[simp] theorem keepBelow_keepBelow (n : Nat) (z : α) (v : Vector α m) : keepBelow n z (keepBelow n z v) = keepBelow n z v :=
  keepBelow_congr fun i hi hn => by rw [keepBelow_getElem, if_pos hn]

@[simp] theorem keepBelow_setIfInBounds (n i : Nat) (z a : α) (v : Vector α m) :
    keepBelow n z ((keepBelow n z v).setIfInBounds i a) = keepBelow n z (v.setIfInBounds i a) :=
  keepBelow_congr fun j hj hn => by
    rw [Vector.getElem_setIfInBounds, Vector.getElem_setIfInBounds, keepBelow_getElem, if_pos hn]

end KeepBelow

/-- The bytes of a READ are all that its result specifies (40_transport.md R120). -/
theorem keepBelow_overlay {n : Nat} {bytes : List Byte} (hn : n ≤ bytes.length) (v w : Vector Byte 255) :
    keepBelow n 0 (overlay v bytes) = keepBelow n 0 (overlay w bytes) :=
  keepBelow_congr fun i hi hin => by simp [overlay, List.getElem?_eq_getElem (hin.trans_le hn)]

/-- The samples of a capture are all that the Capture Buffer specifies (42_capture_classifier.md R150). -/
theorem keepBelow_storeSamples {n d : Nat} (hd : d ≤ n) (sampleBits : Nat) (bytes : List Byte) (v w : Vector Sample 32)
    (z : Sample) :
    keepBelow d z (storeSamples sampleBits bytes n v) = keepBelow d z (storeSamples sampleBits bytes n w) :=
  keepBelow_congr fun i hi hid => by simp [storeSamples, hid.trans_le hd]

/-! ## The relation -/

theorem State.scrub_eq (s : State) :
    s.scrub = { s with
      rbuf := keepBelow s.rlen.toNat 0 s.rbuf
      buf := keepBelow s.depth.toNat ⟨0, 0, 0⟩ s.buf
      lastClickMs := if s.fastCount = 0 ∧ s.slowCount = 0 then 0 else s.lastClickMs
      downStartMs := if s.downLatch then s.downStartMs else 0
      fatalComponent := if s.halted then s.fatalComponent else 0
      fatalCode := if s.halted then s.fatalCode else 0 } := by
  simp only [State.scrub, keepBelow]

theorem State.scrub_scrub (s : State) : s.scrub.scrub = s.scrub := by
  simp only [State.scrub_eq, keepBelow_keepBelow, ← ite_and, ← ite_or, and_self, or_self]

theorem scrub_alike (s : State) : Alike s.scrub s := s.scrub_scrub

@[simp] theorem State.scrub_cfg (s : State) : s.scrub.cfg = s.cfg := by rw [State.scrub_eq]
@[simp] theorem State.scrub_busAddr (s : State) : s.scrub.busAddr = s.busAddr := by rw [State.scrub_eq]
@[simp] theorem State.scrub_depth (s : State) : s.scrub.depth = s.depth := by rw [State.scrub_eq]
@[simp] theorem State.scrub_int1Flags (s : State) : s.scrub.int1Flags = s.int1Flags := by rw [State.scrub_eq]
@[simp] theorem State.scrub_int2Flags (s : State) : s.scrub.int2Flags = s.int2Flags := by rw [State.scrub_eq]
@[simp] theorem State.scrub_clickFlags (s : State) : s.scrub.clickFlags = s.clickFlags := by rw [State.scrub_eq]
@[simp] theorem State.scrub_clickSeen (s : State) : s.scrub.clickSeen = s.clickSeen := by rw [State.scrub_eq]
@[simp] theorem State.scrub_downLatch (s : State) : s.scrub.downLatch = s.downLatch := by rw [State.scrub_eq]
@[simp] theorem State.scrub_wakeState (s : State) : s.scrub.wakeState = s.wakeState := by rw [State.scrub_eq]
@[simp] theorem State.scrub_irqPending (s : State) : s.scrub.irqPending = s.irqPending := by rw [State.scrub_eq]
@[simp] theorem State.scrub_irqLine (s : State) : s.scrub.irqLine = s.irqLine := by rw [State.scrub_eq]
@[simp] theorem State.scrub_spinCount (s : State) : s.scrub.spinCount = s.spinCount := by rw [State.scrub_eq]
@[simp] theorem State.scrub_fastCount (s : State) : s.scrub.fastCount = s.fastCount := by rw [State.scrub_eq]
@[simp] theorem State.scrub_slowCount (s : State) : s.scrub.slowCount = s.slowCount := by rw [State.scrub_eq]
@[simp] theorem State.scrub_halted (s : State) : s.scrub.halted = s.halted := by rw [State.scrub_eq]
@[simp] theorem State.scrub_ctx (s : State) : s.scrub.ctx = s.ctx := by rw [State.scrub_eq]
@[simp] theorem State.scrub_busFeed (s : State) : s.scrub.busFeed = s.busFeed := by rw [State.scrub_eq]
@[simp] theorem State.scrub_lineFeed (s : State) : s.scrub.lineFeed = s.lineFeed := by rw [State.scrub_eq]
@[simp] theorem State.scrub_clockFeed (s : State) : s.scrub.clockFeed = s.clockFeed := by rw [State.scrub_eq]
@[simp] theorem State.scrub_eventFeed (s : State) : s.scrub.eventFeed = s.eventFeed := by rw [State.scrub_eq]

namespace Alike

theorem cfg (h : Alike s t) : s.cfg = t.cfg := by simpa using congrArg State.cfg h
theorem busAddr (h : Alike s t) : s.busAddr = t.busAddr := by simpa using congrArg State.busAddr h
theorem depth (h : Alike s t) : s.depth = t.depth := by simpa using congrArg State.depth h
theorem int1Flags (h : Alike s t) : s.int1Flags = t.int1Flags := by simpa using congrArg State.int1Flags h
theorem int2Flags (h : Alike s t) : s.int2Flags = t.int2Flags := by simpa using congrArg State.int2Flags h
theorem clickFlags (h : Alike s t) : s.clickFlags = t.clickFlags := by simpa using congrArg State.clickFlags h
theorem clickSeen (h : Alike s t) : s.clickSeen = t.clickSeen := by simpa using congrArg State.clickSeen h
theorem downLatch (h : Alike s t) : s.downLatch = t.downLatch := by simpa using congrArg State.downLatch h
theorem wakeState (h : Alike s t) : s.wakeState = t.wakeState := by simpa using congrArg State.wakeState h
theorem irqPending (h : Alike s t) : s.irqPending = t.irqPending := by simpa using congrArg State.irqPending h
theorem irqLine (h : Alike s t) : s.irqLine = t.irqLine := by simpa using congrArg State.irqLine h
theorem spinCount (h : Alike s t) : s.spinCount = t.spinCount := by simpa using congrArg State.spinCount h
theorem fastCount (h : Alike s t) : s.fastCount = t.fastCount := by simpa using congrArg State.fastCount h
theorem slowCount (h : Alike s t) : s.slowCount = t.slowCount := by simpa using congrArg State.slowCount h
theorem halted (h : Alike s t) : s.halted = t.halted := by simpa using congrArg State.halted h
theorem ctx (h : Alike s t) : s.ctx = t.ctx := by simpa using congrArg State.ctx h
theorem busFeed (h : Alike s t) : s.busFeed = t.busFeed := by simpa using congrArg State.busFeed h
theorem lineFeed (h : Alike s t) : s.lineFeed = t.lineFeed := by simpa using congrArg State.lineFeed h
theorem clockFeed (h : Alike s t) : s.clockFeed = t.clockFeed := by simpa using congrArg State.clockFeed h
theorem eventFeed (h : Alike s t) : s.eventFeed = t.eventFeed := by simpa using congrArg State.eventFeed h

theorem param {α : Type} (h : Alike s t) (f : Params → α) : f s.cfg = f t.cfg := congrArg f h.cfg

/-- The start of a held-down orientation is specified while the latch is set (10_state.md R42). -/
theorem downStartMs (h : Alike s t) (hl : t.downLatch = true) : s.downStartMs = t.downStartMs := by
  have he := congrArg State.downStartMs h
  simpa [State.scrub_eq, h.downLatch, hl] using he

/-- The time of the last click is specified while a counter is not zero (10_state.md R42). -/
theorem lastClickMs (h : Alike s t) (hc : ¬ (t.fastCount = 0 ∧ t.slowCount = 0)) : s.lastClickMs = t.lastClickMs := by
  have he := congrArg State.lastClickMs h
  rwa [State.scrub_eq, State.scrub_eq, h.fastCount, h.slowCount, if_neg hc, if_neg hc] at he

/-- An update to which what is unspecified makes no difference. -/
theorem update {u : State → State} (hu : ∀ s, (u s.scrub).scrub = (u s).scrub) (h : Alike s t) : Alike (u s) (u t) :=
  calc (u s).scrub = (u s.scrub).scrub := (hu s).symm
    _ = (u t.scrub).scrub := congrArg (fun r => (u r).scrub) h
    _ = (u t).scrub := hu t

/-- An update of registers that bear on nothing unspecified. -/
theorem commute {u : State → State} (hu : ∀ s, (u s).scrub = u s.scrub) (h : Alike s t) : Alike (u s) (u t) :=
  calc (u s).scrub = u s.scrub := hu s
    _ = u t.scrub := congrArg u h
    _ = (u t).scrub := (hu t).symm

/-! ## Small updates -/

theorem atPhase (h : Alike s t) (p : TPhase) : Alike (s.atPhase p) (t.atPhase p) :=
  h.commute fun r => by simp only [State.scrub_eq, State.atPhase]
theorem emit (h : Alike s t) (e : BusEvent) : Alike (s.emit e) (t.emit e) :=
  h.commute fun r => by simp only [State.scrub_eq, State.emit]
theorem waited (h : Alike s t) (n : Nat) : Alike (s.waited n) (t.waited n) :=
  h.commute fun r => by simp only [State.scrub_eq, State.waited]
theorem abandon (h : Alike s t) : Alike s.abandon t.abandon := h.commute fun r => by simp only [State.scrub_eq, State.abandon]
theorem takeEvent (h : Alike s t) : Alike s.takeEvent t.takeEvent :=
  h.commute fun r => by simp only [State.scrub_eq, State.takeEvent]
theorem sampleClock (h : Alike s t) : Alike s.sampleClock t.sampleClock :=
  h.commute fun r => by simp only [State.scrub_eq, State.sampleClock]
theorem enterForeground (h : Alike s t) : Alike s.enterForeground t.enterForeground :=
  h.commute fun r => by simp only [State.scrub_eq, State.enterForeground]
theorem enterService (h : Alike s t) : Alike s.enterService t.enterService :=
  h.commute fun r => by simp only [State.scrub_eq, State.enterService]
theorem leaveService (h : Alike s t) : Alike s.leaveService t.leaveService :=
  h.commute fun r => by simp only [State.scrub_eq, State.leaveService]
theorem lineStep (h : Alike s t) (l : Bool) : Alike (lineStep l s) (lineStep l t) :=
  h.commute fun r => by simp only [State.scrub_eq, Machine.lineStep]
theorem setWakeState (h : Alike s t) (w : WakeState) : Alike { s with wakeState := w } { t with wakeState := w } :=
  h.commute (u := fun r => { r with wakeState := w }) fun _ => rfl
theorem setBusAddr (h : Alike s t) (a : BusAddr) : Alike { s with busAddr := a } { t with busAddr := a } :=
  h.commute (u := fun r => { r with busAddr := a }) fun _ => rfl
theorem respond (h : Alike s t) (st : Status) (v : Byte) (d : List Byte) : Alike (s.respond st v d) (t.respond st v d) :=
  h.commute fun r => by simp only [State.scrub_eq, State.respond]

/-- The fatal numbers are written when the block halts (60_exceptions.md R252). -/
theorem raiseFatal (h : Alike s t) (code : Nat) : Alike (s.raiseFatal code) (t.raiseFatal code) :=
  h.commute fun r => by simp only [State.scrub_eq, State.raiseFatal, if_true]

theorem resetStep (h : Alike s t) (l : Bool) : Alike (resetStep l s) (resetStep l t) :=
  h.update fun r => by simp only [State.scrub_eq, Machine.resetStep]

theorem storeByte (h : Alike s t) (b : Byte) : Alike (s.storeByte b) (t.storeByte b) :=
  h.update fun s => by simp only [State.scrub_eq, State.storeByte, keepBelow_keepBelow, keepBelow_setIfInBounds, ← ite_and,
    ← ite_or, and_self, or_self]

/-- A new result, of which the old one reaches no specified entry. -/
theorem setResult (h : Alike s t) (n : BitVec 8) {f : Vector Byte 255 → Vector Byte 255}
    (hf : ∀ v w, keepBelow n.toNat 0 (f v) = keepBelow n.toNat 0 (f w)) :
    Alike { s with rbuf := f s.rbuf, rlen := n } { t with rbuf := f t.rbuf, rlen := n } :=
  h.update (u := fun r => { r with rbuf := f r.rbuf, rlen := n }) fun r => by
    simp only [State.scrub_eq, hf (keepBelow _ _ r.rbuf) r.rbuf, keepBelow_keepBelow, ← ite_and, ← ite_or, and_self, or_self]

theorem clearResult (h : Alike s t) : Alike { s with rlen := 0 } { t with rlen := 0 } :=
  h.setResult 0 (f := id) fun _ _ => keepBelow_congr fun i _ hi => absurd hi i.not_lt_zero

/-- A new Capture Buffer, of which the old one reaches no specified entry. -/
theorem setCapture (h : Alike s t) (d : BitVec 6) {f : Vector Sample 32 → Vector Sample 32}
    (hf : ∀ v w, keepBelow d.toNat ⟨0, 0, 0⟩ (f v) = keepBelow d.toNat ⟨0, 0, 0⟩ (f w)) :
    Alike { s with buf := f s.buf, depth := d } { t with buf := f t.buf, depth := d } :=
  h.update (u := fun r => { r with buf := f r.buf, depth := d }) fun r => by
    simp only [State.scrub_eq, hf (keepBelow _ _ r.buf) r.buf, keepBelow_keepBelow, ← ite_and, ← ite_or, and_self, or_self]

theorem clearDepth (h : Alike s t) : Alike { s with depth := 0 } { t with depth := 0 } :=
  h.setCapture 0 (f := id) fun _ _ => keepBelow_congr fun i _ hi => absurd hi i.not_lt_zero

theorem clearFast (h : Alike s t) : Alike { s with fastCount := 0 } { t with fastCount := 0 } :=
  h.update (u := fun r => { r with fastCount := 0 }) fun r => by
    by_cases hr : r.slowCount = 0 <;>
      simp only [State.scrub_eq, keepBelow_keepBelow, hr, ← ite_and, and_self, and_true, and_false, if_true, if_false]

theorem clearSlow (h : Alike s t) : Alike { s with slowCount := 0 } { t with slowCount := 0 } :=
  h.update (u := fun r => { r with slowCount := 0 }) fun r => by
    by_cases hr : r.fastCount = 0 <;>
      simp only [State.scrub_eq, keepBelow_keepBelow, hr, ← ite_and, and_self, and_true, false_and, if_true, if_false]

theorem clearCounts (h : Alike s t) :
    Alike { s with fastCount := 0, slowCount := 0 } { t with fastCount := 0, slowCount := 0 } :=
  h.clearFast.clearSlow

theorem setLatch (h : Alike s t) (now : Time) :
    Alike { s with downLatch := true, downStartMs := now } { t with downLatch := true, downStartMs := now } :=
  h.commute (u := fun r => { r with downLatch := true, downStartMs := now }) fun r => by simp only [State.scrub_eq, if_true]

theorem clearLatch (h : Alike s t) : Alike { s with downLatch := false } { t with downLatch := false } :=
  h.update (u := fun r => { r with downLatch := false }) fun r => by
    simp only [State.scrub_eq, keepBelow_keepBelow, ← ite_and, ← ite_or, and_self, or_self, Bool.false_eq_true, false_and, if_false]

end Alike

/-! ## The transport -/

theorem waitPoint_blind : Blind waitPoint := fun s t h => by
  unfold waitPoint
  rw [busAt_congr h.busFeed, h.cfg]
  split
  · exact ⟨rfl, h.waited _⟩
  · exact ⟨rfl, h.waited _⟩

theorem condition_blind (p : TPhase) (e : BusEvent) : Blind (condition p e) := fun s t h => by
  obtain ⟨h1, h2⟩ := waitPoint_blind (h.atPhase p)
  unfold condition; dsimp only
  rw [h1]
  cases (waitPoint (t.atPhase p)).1 with
  | none => exact ⟨rfl, h2⟩
  | some a => exact ⟨rfl, h2.emit e⟩

theorem send_blind (p : TPhase) (b : Byte) : Blind (send p b) := fun s t h => by
  obtain ⟨h1, h2⟩ := waitPoint_blind (h.atPhase p)
  unfold send; dsimp only
  rw [h1]
  cases (waitPoint (t.atPhase p)).1 with
  | none => exact ⟨rfl, h2⟩
  | some a => exact ⟨rfl, h2.emit _⟩

theorem receiveBytes_blind (k : Nat) : Blind (receiveBytes k) := by
  induction k with
  | zero => exact fun s t h => ⟨rfl, h⟩
  | succ k ih =>
    intro s t h
    obtain ⟨h1, h2⟩ := waitPoint_blind h
    unfold receiveBytes; dsimp only
    rw [h1]
    cases (waitPoint t).1 with
    | none => exact ⟨rfl, h2⟩
    | some a => exact ih ((h2.emit _).storeByte _)

theorem receiveAll_blind (n : Nat) : Blind (receiveAll n) := fun _ _ h =>
  receiveBytes_blind n (h.commute (u := fun r => { r with tphase := .rdata, tidx := 0 }) fun r => by simp only [State.scrub_eq])

theorem runParts_blind {fs : List Tx} (hf : ∀ f ∈ fs, Blind f) : Blind (runParts fs) := by
  induction fs with
  | nil => exact fun s t h => ⟨rfl, h⟩
  | cons f fs ih =>
    intro s t h
    obtain ⟨h1, h2⟩ := hf f List.mem_cons_self h
    rw [runParts_cons, runParts_cons, h1]
    split
    · exact ih (fun g hg => hf g (List.mem_cons_of_mem f hg)) h2
    · exact ⟨rfl, h2⟩

theorem stopBus_blind : Blind stopBus := fun _ _ h =>
  have ⟨h1, h2⟩ := waitPoint_blind (h.atPhase .stop)
  ⟨congrArg Option.isSome h1, h2.emit .stop⟩

theorem transaction_blind {parts : List Tx} (hp : ∀ f ∈ parts, Blind f) : Blind (transaction parts) := fun s t h => by
  obtain ⟨h1, hs⟩ := condition_blind .start .start h
  obtain ⟨h2, hr⟩ := runParts_blind hp hs
  obtain ⟨h3, he⟩ := stopBus_blind hr
  unfold transaction; dsimp only
  rw [h1, h2, h3]
  split
  · split
    · exact ⟨rfl, he.atPhase .idle⟩
    · exact ⟨rfl, he.abandon⟩
  · exact ⟨rfl, hs.abandon⟩

theorem readParts_blind (p : Params) (a : BusAddr) (r : RegNum) (n : Nat) : ∀ f ∈ readParts p a r n, Blind f := by
  simp [readParts, send_blind, condition_blind, receiveAll_blind]

theorem writeParts_blind (a : BusAddr) (r : RegNum) (v : Byte) : ∀ f ∈ writeParts a r v, Blind f := by
  simp [writeParts, send_blind]

theorem busWrite_blind (r : RegNum) (v : Byte) : Blind (busWrite r v) := fun s t h => by
  unfold busWrite
  rw [h.busAddr]
  exact transaction_blind (writeParts_blind _ _ _) h

/-- A READ writes every byte it answers, and one that fails leaves no result (40_transport.md R120, R126). -/
theorem busRead_blind (r : RegNum) {n : Nat} (hn : n ≤ 255) : Blind (busRead r n) := fun s t h => by
  by_cases hs : s.ReadAcked 0 n
  · have ht := (readAcked_congr h.busFeed h.cfg 0 n).1 hs
    have hb : (BitVec.ofNat 8 n).toNat ≤ (t.answers 0 n).length := by
      rw [answers_length, BitVec.toNat_ofNat]
      exact Nat.mod_le _ _
    have hl : readTrace s.cfg s.busAddr r (t.answers 0 n) = readTrace t.cfg t.busAddr r (t.answers 0 n) := by
      rw [h.cfg, h.busAddr]
    rw [busRead_done r n s hn hs, busRead_done r n t hn ht, answers_congr h.busFeed, busAt_congr h.busFeed, hl, h.busFeed]
    refine ⟨rfl, ?_⟩
    exact (h.commute (u := fun u => { u with
      tphase := .idle
      tcount := (t.busAt (n + 5)).wait
      tidx := BitVec.ofNat 8 n
      trace := u.trace ++ readTrace t.cfg t.busAddr r (t.answers 0 n)
      busFeed := feedSkip t.busFeed (n + 6) }) fun u => by simp only [State.scrub_eq]).setResult _
        (f := fun v => overlay v (t.answers 0 n)) fun v w => keepBelow_overlay hb v w
  · have ht := mt (readAcked_congr h.busFeed h.cfg 0 n).2 hs
    have hf := mt (readTransaction_succeeds t.cfg t.busAddr r n t).1 ht
    obtain ⟨h1, h2⟩ := transaction_blind (readParts_blind t.cfg t.busAddr r n) h
    refine ⟨(busRead_failed hs).1.trans (busRead_failed ht).1.symm, ?_⟩
    unfold busRead; dsimp only
    rw [h.cfg, h.busAddr, h1, if_neg hf, if_neg hf]
    exact h2.clearResult

namespace Alike

theorem applySoft (l : WriteList) (h : Alike s t) : Alike (applySoft l s) (applySoft l t) := by
  induction l generalizing s t with
  | nil => exact h
  | cons w l ih => exact ih (busWrite_blind w.1 w.2 h).2

theorem lineSteps (ls : List Bool) (h : Alike s t) : Alike (lineSteps ls s) (lineSteps ls t) := by
  induction ls generalizing s t with
  | nil => exact h
  | cons l ls ih => exact ih (h.lineStep l)

theorem sampleLine (h : Alike s t) : Alike (sampleLine s) (sampleLine t) := by
  unfold Machine.sampleLine
  rw [lineStepsAt_congr h.lineFeed]
  exact lineSteps _ (h.commute (u := fun r => { r with lineFeed := feedSkip r.lineFeed 1 }) fun r => by simp only [State.scrub_eq])

end Alike

theorem applyHard_blind (l : WriteList) : Blind (applyHard l) := by
  induction l with
  | nil => exact fun s t h => ⟨rfl, h⟩
  | cons w l ih =>
    intro s t h
    obtain ⟨h1, h2⟩ := busWrite_blind w.1 w.2 h
    unfold applyHard
    rw [h1]
    split
    · exact ih h2
    · exact ⟨rfl, h2⟩

theorem instant_blind : Blind instant := fun s t h => by
  obtain ⟨h1, h2⟩ := busRead_blind t.cfg.regOut (n := bytesPerSample) (by decide) h
  unfold instant; dsimp only
  rw [h.cfg, h1]
  exact ⟨rfl, h2⟩

/-! ## Capture and classifier -/

namespace Alike

theorem captureBlocks (h : Alike s t) {n : Nat} (hn : n ≤ bufMax) : Alike (captureBlocks n s) (captureBlocks n t) := by
  have hb : bytesPerSample * n ≤ 255 := (Nat.mul_le_mul_left bytesPerSample hn).trans (by decide)
  have hd : (BitVec.ofNat 6 n).toNat ≤ n := by
    rw [BitVec.toNat_ofNat]
    exact Nat.mod_le _ _
  obtain ⟨h1, h2⟩ := busRead_blind t.cfg.regOut hb h
  unfold Machine.captureBlocks; dsimp only
  rw [h.cfg, h1]
  cases (busRead t.cfg.regOut (bytesPerSample * n) t).1 with
  | none => exact h2.clearDepth
  | some bytes => exact h2.setCapture _ fun v w => keepBelow_storeSamples hd _ _ v w _

theorem capture (h : Alike s t) : Alike (capture s) (capture t) := by
  obtain ⟨h1, h2⟩ := busRead_blind t.cfg.regFifoSrc (n := 1) (by decide) h
  unfold Machine.capture; dsimp only
  rw [h.cfg, h1]
  cases (busRead t.cfg.regFifoSrc 1 t).1 with
  | none => exact h2.clearDepth
  | some bytes => exact h2.captureBlocks (fifoDepth_le _)

/-- The classifier reads no sample beyond `depth` (42_capture_classifier.md R152). -/
theorem extSample (h : Alike s t) : extSample s = extSample t := by
  have hb : keepBelow t.depth.toNat ⟨0, 0, 0⟩ s.buf = keepBelow t.depth.toNat ⟨0, 0, 0⟩ t.buf := by
    simpa only [State.scrub_eq, h.depth] using congrArg State.buf h
  funext i
  unfold Machine.extSample
  rw [h.depth]
  split
  · next hd =>
    by_cases hi : i < 32
    · have he : (keepBelow t.depth.toNat ⟨0, 0, 0⟩ s.buf)[i] = (keepBelow t.depth.toNat ⟨0, 0, 0⟩ t.buf)[i] := by rw [hb]
      rw [keepBelow_getElem, keepBelow_getElem, if_pos hd, if_pos hd] at he
      simpa [List.getD_eq_getElem?_getD, hi] using he
    · simp [List.getD_eq_getElem?_getD, hi]
  · rfl

theorem classify (h : Alike s t) : classify s = classify t := by
  have hs : score s = score t := by
    unfold score weighted
    rw [h.extSample, h.cfg]
  unfold Machine.classify
  simp only [stageY9, stageLastBelow, stageSlope, stageX5, stageXY, stageLastAbove, stageOvershoot, lastSample, sumX, sumY, sumZ,
    h.extSample, hs, h.cfg, h.depth]
  congr!

/-! ## SERVICE -/

theorem readInt1 (h : Alike s t) : Alike (readInt1 s) (readInt1 t) := by
  obtain ⟨h1, h2⟩ := busRead_blind t.cfg.regInt1Src (n := 1) (by decide) h
  unfold Machine.readInt1; dsimp only
  rw [h.cfg, h1]
  cases (busRead t.cfg.regInt1Src 1 t).1 with
  | none => exact h2
  | some bytes =>
    exact h2.commute (u := fun r => { r with int1Flags := r.int1Flags.or (decodeMotion t.cfg.motionLayout (bytes.getD 0 0)) })
      fun r => by simp only [State.scrub_eq]

theorem readInt2 (h : Alike s t) : Alike (readInt2 s) (readInt2 t) := by
  obtain ⟨h1, h2⟩ := busRead_blind t.cfg.regInt2Src (n := 1) (by decide) h
  unfold Machine.readInt2; dsimp only
  rw [h.cfg, h1]
  cases (busRead t.cfg.regInt2Src 1 t).1 with
  | none => exact h2
  | some bytes =>
    exact h2.commute (u := fun r => { r with int2Flags := r.int2Flags.or (decodeMotion t.cfg.motionLayout (bytes.getD 0 0)) })
      fun r => by simp only [State.scrub_eq]

theorem readClick (h : Alike s t) : Alike (readClick s) (readClick t) := by
  obtain ⟨h1, h2⟩ := busRead_blind t.cfg.regClickSrc (n := 1) (by decide) h
  unfold Machine.readClick; dsimp only
  rw [h.cfg, h1]
  cases (busRead t.cfg.regClickSrc 1 t).1 with
  | none => exact h2
  | some bytes =>
    exact h2.commute (u := fun r => { r with clickFlags := r.clickFlags.or (decodeClick t.cfg.clickLayout (bytes.getD 0 0)) })
      fun r => by simp only [State.scrub_eq]

theorem statusPass (h : Alike s t) : Alike (statusPass s) (statusPass t) := h.readInt1.readInt2.readClick

theorem serviceStart (h : Alike s t) : Alike (serviceStart s) (serviceStart t) :=
  h.enterService.statusPass.commute (u := fun r => { r with irqPending := false, spinCount := 0 }) fun r => by
    simp only [State.scrub_eq]

theorem rereadPass (h : Alike s t) : Alike (rereadPass s) (rereadPass t) :=
  statusPass (h.commute (u := fun r => { r with spinCount := r.spinCount + 1 }) fun r => by simp only [State.scrub_eq])

theorem spinWait (k : Nat) (h : Alike s t) : Alike (spinWait k s) (spinWait k t) := by
  induction k generalizing s t with
  | zero => exact h
  | succ k ih =>
    have hl := h.sampleLine
    unfold Machine.spinWait; dsimp only
    rw [hl.irqLine, hl.spinCount, hl.cfg]
    split
    · split
      · exact hl.applySoft _
      · exact ih hl.rereadPass
    · exact hl

theorem advanceUp (h : Alike s t) : Alike (advanceUp s) (advanceUp t) := by
  have hc := h.capture
  unfold Machine.advanceUp; dsimp only
  rw [hc.classify, hc.cfg]
  cases (Machine.classify (Machine.capture t)).1 with
  | accept => exact (hc.applySoft _).setWakeState _
  | reject => exact (hc.applySoft _).setWakeState _

theorem advanceDown (h : Alike s t) : Alike (advanceDown s) (advanceDown t) := by
  unfold Machine.advanceDown
  rw [h.cfg]
  exact (h.applySoft _).setWakeState _

theorem advance (h : Alike s t) : Alike (advance s) (advance t) := by
  unfold Machine.advance
  by_cases hc : t.clickFlags.active = true
  · rw [if_pos hc, if_pos (h.clickFlags.symm ▸ hc)]
    exact h.setWakeState _
  · rw [if_neg hc, if_neg (h.clickFlags.symm ▸ hc), h.wakeState]
    cases t.wakeState with
    | waitForDown => exact h.advanceDown
    | waitForUp =>
      dsimp only
      by_cases hz : zyHigh t.int1Flags t.int2Flags = true
      · rw [if_pos hz, if_pos (h.int1Flags.symm ▸ h.int2Flags.symm ▸ hz)]
        exact h.advanceUp
      · rw [if_neg hz, if_neg (h.int1Flags.symm ▸ h.int2Flags.symm ▸ hz)]
        exact h.setWakeState _
    | sleepStart => exact h
    | wakeByClick => exact h
    | wakeByTurnUp => exact h

theorem service (h : Alike s t) : Alike (service s) (service t) := by
  rw [service_eq, service_eq]
  exact (h.serviceStart.spinWait _).advance.leaveService

/-! ## A poll (44_click_debounce.md) -/

/-- A window of the fast counter is judged by the last click only while the counter is not zero (R221). -/
theorem fastEnded (h : Alike s t) (w now : Time) :
    windowEnded s.fastCount w now s.lastClickMs = windowEnded t.fastCount w now t.lastClickMs := by
  rw [h.fastCount]
  by_cases hc : t.fastCount = 0
  · simp [windowEnded, hc]
  · rw [h.lastClickMs fun hh => hc hh.1]

theorem slowEnded (h : Alike s t) (w now : Time) :
    windowEnded s.slowCount w now s.lastClickMs = windowEnded t.slowCount w now t.lastClickMs := by
  rw [h.slowCount]
  by_cases hc : t.slowCount = 0
  · simp [windowEnded, hc]
  · rw [h.lastClickMs fun hh => hc hh.2]

theorem expireWindows (h : Alike s t) (now : Time) : Alike (expireWindows now s) (expireWindows now t) := by
  unfold Machine.expireWindows
  rw [h.fastEnded, h.slowEnded]
  split <;> split
  · exact h.clearCounts
  · exact h.clearFast
  · exact h.clearSlow
  · exact h

theorem updateDownLatch (h : Alike s t) (now : Time) (v : Option Sample) :
    Alike (updateDownLatch now v s) (updateDownLatch now v t) := by
  cases v with
  | none => exact h
  | some v =>
    unfold Machine.updateDownLatch; dsimp only
    by_cases hv : v.z < t.cfg.zDownThreshold
    · rw [if_pos hv, if_pos (h.cfg.symm ▸ hv), h.downLatch]
      split
      · exact h
      · exact h.setLatch now
    · rw [if_neg hv, if_neg (h.cfg.symm ▸ hv)]
      exact h.clearLatch

theorem clockAt (h : Alike s t) (k : Nat) : s.clockAt k = t.clockAt k := by
  rw [State.clockAt, State.clockAt, h.clockFeed]

end Alike

theorem updateDownLatch_downLatch {now : Time} {v : Sample} (hv : v.z < s.cfg.zDownThreshold) :
    (updateDownLatch now (some v) s).downLatch = true := by
  unfold updateDownLatch; dsimp only
  rw [if_pos hv]
  split
  · assumption
  · rfl

theorem updateDownLatch_cfg (now : Time) (v : Option Sample) (s : State) : (updateDownLatch now v s).cfg = s.cfg := by
  unfold updateDownLatch
  split
  · split
    · split <;> rfl
    · rfl
  · rfl

/-- The start of a held-down orientation is read only below the threshold, where the latch is set (44_click_debounce.md R222). -/
theorem Alike.sustainedDown (h : Alike s t) (now : Time) (v : Option Sample) :
    sustainedDown now v (Machine.updateDownLatch now v s) = sustainedDown now v (Machine.updateDownLatch now v t) := by
  cases v with
  | none => rfl
  | some v =>
    unfold Machine.sustainedDown; dsimp only
    rw [updateDownLatch_cfg, updateDownLatch_cfg, h.cfg]
    by_cases hv : v.z < t.cfg.zDownThreshold
    · rw [(h.updateDownLatch now (some v)).downStartMs (updateDownLatch_downLatch hv)]
    · simp [hv]

namespace Alike

/-- A click that counts writes the time that the counters then refer to (44_click_debounce.md R223). -/
theorem countClick (h : Alike s t) (now : Time) (f : ClickFlags) :
    Alike
      { s with clickSeen := true, clickFlags := f, fastCount := saturatingSucc s.fastCount
               slowCount := saturatingSucc s.slowCount, lastClickMs := now }
      { t with clickSeen := true, clickFlags := f, fastCount := saturatingSucc t.fastCount
               slowCount := saturatingSucc t.slowCount, lastClickMs := now } :=
  h.update (u := fun r => { r with
    clickSeen := true
    clickFlags := f
    fastCount := saturatingSucc r.fastCount
    slowCount := saturatingSucc r.slowCount
    lastClickMs := now }) fun r => by simp only [State.scrub_eq, keepBelow_keepBelow, ← ite_and, and_self]

theorem seeClick (h : Alike s t) (f : ClickFlags) :
    Alike { s with clickSeen := true, clickFlags := f } { t with clickSeen := true, clickFlags := f } :=
  h.commute (u := fun r => { r with clickSeen := true, clickFlags := f }) fun r => by simp only [State.scrub_eq]

theorem forgetClick (h : Alike s t) : Alike { s with clickSeen := false } { t with clickSeen := false } :=
  h.commute (u := fun r => { r with clickSeen := false }) fun r => by simp only [State.scrub_eq]

end Alike

theorem takeClick_blind (now : Time) (f : ClickFlags) : Blind (takeClick now f) := fun s t h => by
  unfold takeClick
  by_cases hq : qualifying t.cfg.clickAxis f = true
  · rw [if_pos hq, if_pos (h.cfg.symm ▸ hq)]
    exact ⟨rfl, h.countClick now f⟩
  · rw [if_neg hq, if_neg (h.cfg.symm ▸ hq)]
    exact ⟨rfl, h.seeClick f⟩

theorem pollClick_blind (now : Time) : Blind (pollClick now) := fun s t h => by
  have hl := h.sampleLine
  obtain ⟨h1, h2⟩ := busRead_blind (sampleLine t).cfg.regClickSrc (n := 1) (by decide) hl
  unfold pollClick; dsimp only
  by_cases ha : (sampleLine t).irqLine = true
  · rw [if_pos ha, if_pos (hl.irqLine.trans ha), hl.clickSeen, hl.cfg, h1]
    split
    · exact ⟨rfl, hl⟩
    · cases (busRead (sampleLine t).cfg.regClickSrc 1 (sampleLine t)).1 with
      | none => exact ⟨rfl, h2⟩
      | some bytes => exact takeClick_blind _ _ h2
  · rw [if_neg ha, if_neg (hl.irqLine.symm ▸ ha)]
    exact ⟨rfl, hl.forgetClick⟩

/-! ## Every command and every step -/

theorem probe_blind (a : BusAddr) : Blind (probe a) := fun s t h => by
  unfold probe
  rw [h.param Params.regId]
  exact busRead_blind t.cfg.regId (n := 1) (by decide) (h.setBusAddr a)

namespace Alike

theorem armWake (h : Alike s t) : Alike { armWake s with irqEn := true } { armWake t with irqEn := true } := by
  refine Alike.commute (s := Machine.armWake s) (t := Machine.armWake t) (u := fun r => { r with irqEn := true })
    (fun r => by simp only [State.scrub_eq]) ?_
  unfold Machine.armWake
  by_cases hg : t.cfg.wakeGestures = true
  · rw [if_pos hg, if_pos (h.cfg.symm ▸ hg), h.cfg]
    exact (h.applySoft _).setWakeState _
  · rw [if_neg hg, if_neg (h.cfg.symm ▸ hg)]
    exact h.setWakeState _

theorem answerIllegal (h : Alike s t) : Alike (answerIllegal s) (answerIllegal t) := h.enterForeground.respond _ _ _

theorem checkIdentity (h : Alike s t) (v : Byte) : Alike (checkIdentity v s) (checkIdentity v t) := by
  unfold Machine.checkIdentity
  rw [h.cfg]
  split
  · exact h.respond _ _ _
  · exact h.raiseFatal _

theorem initBody (h : Alike s t) : Alike (initBody s) (initBody t) := by
  obtain ⟨h1, hp⟩ := probe_blind t.cfg.addrPrimary h
  obtain ⟨h2, hq⟩ := probe_blind t.cfg.addrSecondary hp
  unfold Machine.initBody; dsimp only
  rw [h.cfg, h1, h2]
  cases (probe t.cfg.addrPrimary t).1 with
  | some bytes => exact hp.checkIdentity _
  | none =>
    cases (probe t.cfg.addrSecondary (probe t.cfg.addrPrimary t).2).1 with
    | some bytes => exact hq.checkIdentity _
    | none => exact hq.raiseFatal _

/-- Two states that are alike, as two outcomes that are alike. -/
theorem next (h : Alike s t) : scrubOutcome (.next s) = scrubOutcome (.next t) := congrArg Host.Outcome.next h

theorem execRead (h : Alike s t) (r : RegNum) (n : Byte) :
    scrubOutcome (execRead r n s) = scrubOutcome (execRead r n t) := by
  obtain ⟨h1, h2⟩ := busRead_blind r (Nat.le_of_lt_succ n.isLt) h.enterForeground
  unfold Machine.execRead; dsimp only
  rw [h1]
  refine next ?_
  split
  · exact h.answerIllegal
  · cases (busRead r n.toNat t.enterForeground).1 with
    | none => exact h2.respond _ _ _
    | some bytes => exact h2.respond _ _ _

theorem execWrite (h : Alike s t) (r : RegNum) (v : Byte) :
    scrubOutcome (execWrite r v s) = scrubOutcome (execWrite r v t) := by
  obtain ⟨h1, h2⟩ := busWrite_blind r v h.enterForeground
  unfold Machine.execWrite; dsimp only
  rw [h1]
  exact (h2.respond _ _ _).next

theorem execSetaddr (h : Alike s t) (b : BitVec 1) : scrubOutcome (execSetaddr b s) = scrubOutcome (execSetaddr b t) := by
  unfold Machine.execSetaddr
  rw [h.param (candidateAddr · b)]
  exact ((h.enterForeground.setBusAddr _).respond _ _ _).next

theorem execInit (h : Alike s t) : scrubOutcome (execInit s) = scrubOutcome (execInit t) := by
  unfold Machine.execInit
  rw [h.cfg]
  split
  · rfl
  · exact h.enterForeground.initBody.next

theorem disarm (h : Alike s t) :
    Alike { s with irqEn := false, irqPending := false } { t with irqEn := false, irqPending := false } :=
  h.commute (u := fun r => { r with irqEn := false, irqPending := false }) fun r => by simp only [State.scrub_eq]

theorem execEnable (h : Alike s t) : scrubOutcome (execEnable s) = scrubOutcome (execEnable t) := by
  have hd := h.enterForeground.disarm.applySoft t.cfg.activeSoft
  obtain ⟨h1, h2⟩ := applyHard_blind t.cfg.activeHard hd
  unfold Machine.execEnable; dsimp only
  rw [h.param Params.activeSoft, h.param Params.activeHard, h.param Params.fatalConfig, h1]
  refine next ?_
  split
  · exact h2.respond _ _ _
  · exact h2.raiseFatal _

theorem execSleep (h : Alike s t) : scrubOutcome (execSleep s) = scrubOutcome (execSleep t) := by
  unfold Machine.execSleep; dsimp only
  rw [h.param Params.sleepList]
  exact ((h.enterForeground.clearCounts.clearDepth.applySoft _).armWake.respond _ _ _).next

theorem execReadInstant (h : Alike s t) : scrubOutcome (execReadInstant s) = scrubOutcome (execReadInstant t) := by
  obtain ⟨h1, h2⟩ := instant_blind h.enterForeground
  unfold Machine.execReadInstant; dsimp only
  rw [h1]
  cases (instant t.enterForeground).1 with
  | none => exact (h2.respond _ _ _).next
  | some v => exact (h2.respond _ _ _).next

theorem execWakeupCheck (h : Alike s t) : scrubOutcome (execWakeupCheck s) = scrubOutcome (execWakeupCheck t) := by
  have hf := h.enterForeground
  obtain ⟨h1, h2⟩ := instant_blind hf
  unfold Machine.execWakeupCheck; dsimp only
  rw [h.wakeState, h1, h.cfg]
  cases t.wakeState with
  | wakeByClick => exact (h2.respond _ _ _).next
  | wakeByTurnUp => exact (hf.respond _ _ _).next
  | sleepStart => exact (hf.respond _ _ _).next
  | waitForDown => exact (hf.respond _ _ _).next
  | waitForUp => exact (hf.respond _ _ _).next

theorem pollExpired (h : Alike s t) : Alike (pollExpired s) (pollExpired t) := by
  unfold Machine.pollExpired
  rw [h.clockAt]
  exact h.enterForeground.sampleClock.expireWindows _

theorem pollOriented (h : Alike s t) : Alike (pollOriented s) (pollOriented t) := by
  obtain ⟨h1, h2⟩ := instant_blind h.pollExpired
  unfold Machine.pollOriented
  rw [h.clockAt, h1]
  exact h2.updateDownLatch _ _

theorem pollEvents (h : Alike s t) : pollEvents s = pollEvents t := by
  obtain ⟨h1, h2⟩ := instant_blind h.pollExpired
  have hd := h2.sustainedDown (t.clockAt 0) (instant (Machine.pollExpired t)).1
  have hc := (pollClick_blind (t.clockAt 0) h.pollOriented).1
  unfold Machine.pollEvents
  rw [h.clockAt, h.fastEnded, h.slowEnded, hc, h1]
  congr 1
  unfold Machine.pollOriented
  rw [h.clockAt, h1]
  exact hd

theorem execEventFlags (h : Alike s t) : scrubOutcome (exec .eventFlags s) = scrubOutcome (exec .eventFlags t) := by
  have hp := (pollClick_blind (t.clockAt 0) h.pollOriented).2
  rw [execEventFlags_eq, execEventFlags_eq, h.clockAt, h.pollEvents]
  exact (hp.respond _ _ _).next

theorem execEventsClear (h : Alike s t) : scrubOutcome (execEventsClear s) = scrubOutcome (execEventsClear t) :=
  (h.enterForeground.clearCounts.respond _ _ _).next

theorem exec (h : Alike s t) (i : Instr) : scrubOutcome (exec i s) = scrubOutcome (exec i t) := by
  cases i with
  | read r n => exact h.execRead r n
  | write r v => exact h.execWrite r v
  | setaddr b => exact h.execSetaddr b
  | init => exact h.execInit
  | enable => exact h.execEnable
  | sleep => exact h.execSleep
  | readInstant => exact h.execReadInstant
  | wakeupCheck => exact h.execWakeupCheck
  | eventFlags => exact h.execEventFlags
  | eventsClear => exact h.execEventsClear

theorem nextEvent (h : Alike s t) : s.nextEvent = t.nextEvent := by rw [State.nextEvent, State.nextEvent, h.eventFeed]

theorem cmdReady (h : Alike s t) : s.cmdReady = t.cmdReady := by
  rw [State.cmdReady, State.cmdReady, h.halted, h.ctx, h.irqPending]

theorem serviceDue (h : Alike s t) : s.serviceDue = t.serviceDue := by
  rw [State.serviceDue, State.serviceDue, h.halted, h.irqPending]

theorem runWord (h : Alike s t) (w : CmdWord) : scrubOutcome (runWord w s) = scrubOutcome (runWord w t) := by
  unfold Machine.runWord
  cases decode w with
  | ok i => exact h.exec i
  | error e => exact h.answerIllegal.next

theorem offerWord (h : Alike s t) (w : CmdWord) : scrubOutcome (offerWord w s) = scrubOutcome (offerWord w t) := by
  unfold Machine.offerWord
  rw [h.cmdReady, h.serviceDue, h.halted]
  split
  · exact h.takeEvent.runWord w
  · split
    · exact h.service.next
    · rfl

theorem idleTurn (h : Alike s t) : scrubOutcome (idleTurn s) = scrubOutcome (idleTurn t) := by
  unfold Machine.idleTurn
  rw [h.serviceDue, h.halted]
  split
  · exact h.takeEvent.service.next
  · split
    · rfl
    · exact h.takeEvent.next

theorem step (h : Alike s t) : scrubOutcome (step s) = scrubOutcome (step t) := by
  unfold Machine.step
  rw [h.nextEvent]
  cases t.nextEvent with
  | line l => exact (h.takeEvent.lineStep l).next
  | reset l => exact (h.takeEvent.resetStep l).next
  | command w => exact h.offerWord w
  | quiet => exact h.idleTurn

end Alike

/-- Settles O56: a state and its scrubbed form are alike, and a step keeps that. -/
theorem unspecifiedContentsAreNeverRead : Obligations.UnspecifiedContentsAreNeverRead := fun s => (scrub_alike s).step

end Sys2Proof.Machine
end

section
/-! SUPPORT. Who writes `wake_state` (10_state.md R32): of the commands only SLEEP, and of the other steps only SERVICE and
`Reset`. -/

namespace Sys2Proof.Machine

variable {s t : State}

@[simp] theorem instant_wakeState (s : State) : (instant s).2.wakeState = s.wakeState := busRead_wakeState _ _ _

@[simp] theorem probe_wakeState (a : BusAddr) (s : State) : (probe a s).2.wakeState = s.wakeState := busRead_wakeState _ _ _

@[simp] theorem checkIdentity_wakeState (v : Byte) (s : State) : (checkIdentity v s).wakeState = s.wakeState := by
  unfold checkIdentity
  split <;> rfl

@[simp] theorem initBody_wakeState (s : State) : (initBody s).wakeState = s.wakeState := by
  unfold initBody; dsimp only
  split
  · simp
  · split <;> simp

@[simp] theorem takeClick_wakeState (now : Time) (f : ClickFlags) (s : State) :
    (takeClick now f s).2.wakeState = s.wakeState := by
  unfold takeClick
  split <;> rfl

@[simp] theorem pollClick_wakeState (now : Time) (s : State) : (pollClick now s).2.wakeState = s.wakeState := by
  unfold pollClick; dsimp only
  split
  · split
    · simp
    · split <;> simp
  · simp

@[simp] theorem updateDownLatch_wakeState (now : Time) (v : Option Sample) (s : State) :
    (updateDownLatch now v s).wakeState = s.wakeState := by
  unfold updateDownLatch
  split
  · split
    · split <;> rfl
    · rfl
  · rfl

/-- Of the commands only SLEEP writes `wake_state` (41_device_config.md R132, 43_wake_sequencer.md R192). -/
theorem exec_wakeState {i : Instr} (hi : i ≠ .sleep) (he : exec i s = .next t) : t.wakeState = s.wakeState := by
  cases i with
  | read r n =>
    cases he; dsimp only
    split
    · rfl
    · split <;> simp
  | write r v => cases he; simp
  | setaddr b => cases he; rfl
  | init =>
    simp only [exec, execInit] at he
    split at he
    · cases he
    · cases he; simp
  | enable =>
    cases he; dsimp only
    split <;> simp
  | sleep => exact absurd rfl hi
  | readInstant =>
    cases he; dsimp only
    split <;> simp
  | wakeupCheck =>
    cases he; dsimp only
    split <;> simp
  | eventFlags =>
    rw [execEventFlags_eq] at he
    cases he
    simp [pollOriented, pollExpired, expireWindows]
  | eventsClear => cases he; rfl

/-- Settles O46, by the seven ways a step answers a next state. -/
theorem wakeStateChangesOnlyInItsOwnSteps : Obligations.WakeStateChangesOnlyInItsOwnSteps := by
  intro s t hst hw
  obtain ⟨l, -, rfl⟩ | ⟨l, hr, -⟩ | ⟨w, i, hc, -, hd, he⟩ | ⟨w, e, -, -, -, rfl⟩ | ⟨w, hc, -, hp, hh, ht⟩ | ⟨hq, hp, hh, ht⟩ |
    ⟨-, -, rfl⟩ := step_cases hst
  · exact absurd rfl hw
  · exact .inl ⟨l, hr⟩
  · have hi : i = .sleep := by
      by_contra hi
      exact hw (exec_wakeState (s := s.takeEvent) hi he)
    exact .inr (.inr ⟨w, hc, by rw [hd, hi]⟩)
  · exact absurd rfl hw
  · exact .inr (.inl ⟨hp, hh, .inl ⟨w, hc, ht⟩⟩)
  · exact .inr (.inl ⟨hp, hh, .inr ⟨hq, ht⟩⟩)
  · exact absurd rfl hw

end Sys2Proof.Machine
end

section
/-! SUPPORT. What `Reset` leaves (10_state.md R42, 70_reset_and_hazards.md R290, R291). -/

namespace Sys2Proof.Machine

theorem step_of_nextEvent_reset {s : State} {level : Bool} (h : s.nextEvent = .reset level) :
    step s = .next (resetStep level s.takeEvent) := by
  simp only [step, h]

/-- Settles O11: the step is `resetStep`, whose registers are those of `State.resetWith`. -/
theorem resetStepGivesTheResetValues : Obligations.ResetStepGivesTheResetValues := by
  intro s level h
  exact ⟨_, step_of_nextEvent_reset h, rfl, rfl, rfl, rfl, rfl, rfl, rfl, rfl, rfl, rfl, rfl, rfl, rfl, rfl,
    rfl, rfl, rfl, rfl, rfl, rfl, rfl, rfl, rfl⟩

/-- Settles O12: `State.resetWith` writes each of these values. -/
theorem resetStateHoldsTheResetValues : Obligations.ResetStateHoldsTheResetValues := by
  intro p
  exact ⟨rfl, rfl, rfl, rfl, rfl, rfl, rfl, rfl, rfl, rfl, rfl, rfl, rfl, rfl, rfl, rfl, rfl, rfl, rfl, rfl, rfl, rfl, rfl⟩

end Sys2Proof.Machine
end

section
/-! SUPPORT. The top bits of a word, as a signed number (20_memory.md R64): the arithmetic right shift by the bits below them. -/

namespace Sys2Proof.Machine

/-- A whole number of words makes no difference to the `n` bits above bit `k` of a word of `k + n` bits. -/
theorem bmod_ediv_sub_mul_two_pow (m c : Int) (k n : Nat) :
    ((m - c * 2 ^ (k + n)) / 2 ^ k).bmod (2 ^ n) = (m / 2 ^ k).bmod (2 ^ n) := by
  have hm : m - c * 2 ^ (k + n) = m - c * 2 ^ n * 2 ^ k := by ring
  rw [hm, Int.sub_mul_ediv_right _ _ (by positivity)]
  exact_mod_cast Int.sub_mul_bmod_self_right (m / 2 ^ k) c (2 ^ n)

theorem toInt_ediv_two_pow_bmod {k n : Nat} (x : BitVec (k + n)) :
    (x.toInt / 2 ^ k).bmod (2 ^ n) = ((x.toNat >>> k : Nat) : Int).bmod (2 ^ n) := by
  have hx : ∃ c : Int, x.toInt = x.toNat - c * 2 ^ (k + n) := by
    cases hm : x.msb with
    | false => exact ⟨0, by simp [BitVec.toInt_eq_msb_cond, hm]⟩
    | true => exact ⟨1, by simp [BitVec.toInt_eq_msb_cond, hm]⟩
  obtain ⟨c, hc⟩ := hx
  rw [hc, bmod_ediv_sub_mul_two_pow, Nat.shiftRight_eq_div_pow]
  push_cast
  rfl

/-- A signed word of `k + n` bits over `2 ^ k` fits in `n` bits. -/
theorem toInt_ediv_two_pow_bounds {k n : Nat} (hn : 0 < n) (x : BitVec (k + n)) :
    -2 ^ (n - 1) ≤ x.toInt / 2 ^ k ∧ x.toInt / 2 ^ k < 2 ^ (n - 1) := by
  have hw : (2 : Int) ^ (k + n - 1) = 2 ^ (n - 1) * 2 ^ k := by rw [← pow_add]; congr 1; omega
  have hpos : (0 : Int) < 2 ^ k := by positivity
  constructor
  · rw [Int.le_ediv_iff_mul_le hpos, neg_mul, ← hw]
    exact x.le_toInt
  · rw [Int.ediv_lt_iff_lt_mul hpos, ← hw]
    exact x.toInt_lt

theorem toInt_extractLsb'_top {w k n : Nat} (hn : 0 < n) (hw : k + n = w) (x : BitVec w) :
    (x.extractLsb' k n).toInt = x.toInt / 2 ^ k := by
  subst hw
  obtain ⟨hlo, hhi⟩ := toInt_ediv_two_pow_bounds hn x
  have htop : ((2 ^ n : Nat) : Int) = 2 ^ (n - 1) * 2 := by
    rw [← pow_succ, Nat.sub_add_cancel hn]; norm_cast
  calc (x.extractLsb' k n).toInt = ((x.toNat >>> k : Nat) : Int).bmod (2 ^ n) := BitVec.toInt_extractLsb'
    _ = (x.toInt / 2 ^ k).bmod (2 ^ n) := (toInt_ediv_two_pow_bmod x).symm
    _ = x.toInt / 2 ^ k := Int.bmod_eq_of_le_mul_two (by omega) (by omega)

/-- Settles O28: the axis value is the top `SAMPLE_BITS` bits of the raw value. -/
theorem axisValueIsTheShiftedRawValue : Obligations.AxisValueIsTheShiftedRawValue := by
  intro sampleBits lo hi h8 h16
  exact toInt_extractLsb'_top (Nat.lt_of_lt_of_le (by decide) h8) (Nat.sub_add_cancel h16) (hi ++ lo)

end Sys2Proof.Machine
end

section
/-! SUPPORT. What every operation keeps and extends: the parameters stay (20_memory.md R73, 60_exceptions.md R266), and the
records of what left the block only grow (40_transport.md R128; log 6). -/

namespace Sys2Proof.Machine

/-- `t` has the parameters of `s`, and the records of `s` are the beginning of its own. -/
structure Follows (s t : State) : Prop where
  cfg : t.cfg = s.cfg
  responses : s.responses <+: t.responses
  trace : s.trace <+: t.trace

namespace Follows

variable {s t u : State}

/-- An update that writes neither a parameter nor a record. -/
theorem of_eq (hc : t.cfg = s.cfg) (hr : t.responses = s.responses) (ht : t.trace = s.trace) : Follows s t :=
  ⟨hc, hr ▸ List.prefix_rfl, ht ▸ List.prefix_rfl⟩

theorem refl (s : State) : Follows s s := .of_eq rfl rfl rfl

theorem trans (h : Follows s t) (g : Follows t u) : Follows s u :=
  ⟨g.cfg.trans h.cfg, h.responses.trans g.responses, h.trace.trans g.trace⟩

/-- The transport writes no parameter and no response, so only its trace is left to ask about. -/
theorem of_transportOnly (h : TransportOnly s t) (ht : s.trace <+: t.trace) : Follows s t :=
  ⟨h.cfg, h.responses ▸ List.prefix_rfl, ht⟩

theorem of_lineOnly (h : LineOnly s t) : Follows s t := .of_eq h.cfg h.responses h.trace

/-- The end of a command adds its one response (30_encoding.md R94). -/
theorem respond (h : Follows s t) (st : Status) (v : Byte) (d : List Byte) : Follows s (t.respond st v d) :=
  h.trans ⟨rfl, List.prefix_append _ _, List.prefix_rfl⟩

theorem raiseFatal (h : Follows s t) (code : Nat) : Follows s (t.raiseFatal code) := h.trans (.of_eq rfl rfl rfl)

end Follows

/-! ## The trace of a transaction -/

/-- A part of a transaction adds its bus events to the trace and takes none away. -/
def Tx.Appends (f : Tx) : Prop := ∀ s, s.trace <+: (f s).2.trace

theorem condition_appends (p : TPhase) (e : BusEvent) : Tx.Appends (condition p e) := by
  intro s
  unfold condition; dsimp only
  split <;> simp

theorem send_appends (p : TPhase) (b : Byte) : Tx.Appends (send p b) := by
  intro s
  unfold send; dsimp only
  split <;> simp

theorem receiveBytes_appends (k : Nat) : Tx.Appends (receiveBytes k) := by
  induction k with
  | zero => exact fun s => List.prefix_rfl
  | succ k ih =>
    intro s
    unfold receiveBytes; dsimp only
    split
    · exact List.IsPrefix.trans (by simp) (ih _)
    · simp

theorem receiveAll_appends (n : Nat) : Tx.Appends (receiveAll n) := fun s =>
  receiveBytes_appends n { s with tphase := .rdata, tidx := 0 }

theorem runParts_appends (fs : List Tx) (h : ∀ f ∈ fs, f.Appends) : Tx.Appends (runParts fs) := by
  induction fs with
  | nil => exact fun s => List.prefix_rfl
  | cons f fs ih =>
    intro s
    have hf := h f List.mem_cons_self s
    unfold runParts
    split
    · exact hf.trans (ih (fun g hg => h g (List.mem_cons_of_mem f hg)) _)
    · exact hf

theorem stopBus_appends : Tx.Appends stopBus := fun s => by simp

theorem transaction_appends (parts : List Tx) (h : ∀ f ∈ parts, f.Appends) : Tx.Appends (transaction parts) := by
  intro s
  have h1 := condition_appends .start .start s
  have h2 := (h1.trans (runParts_appends parts h _)).trans (stopBus_appends _)
  unfold transaction; dsimp only
  split
  · split <;> exact h2
  · exact h1

theorem readParts_appends (p : Params) (a : BusAddr) (r : RegNum) (n : Nat) : ∀ f ∈ readParts p a r n, f.Appends := by
  intro f hf
  simp only [readParts, List.mem_cons, List.not_mem_nil, or_false] at hf
  obtain rfl | rfl | rfl | rfl | rfl := hf
  exacts [send_appends _ _, send_appends _ _, condition_appends _ _, send_appends _ _, receiveAll_appends _]

theorem writeParts_appends (a : BusAddr) (r : RegNum) (v : Byte) : ∀ f ∈ writeParts a r v, f.Appends := by
  intro f hf
  simp only [writeParts, List.mem_cons, List.not_mem_nil, or_false] at hf
  obtain rfl | rfl | rfl := hf
  exacts [send_appends _ _, send_appends _ _, send_appends _ _]

/-! ## The shared operations -/

theorem busRead_follows (r : RegNum) (n : Nat) (s : State) : Follows s (busRead r n s).2 := by
  refine .of_transportOnly (busRead_transportOnly r n s) ?_
  have h := transaction_appends _ (readParts_appends s.cfg s.busAddr r n) s
  unfold busRead; dsimp only
  split <;> exact h

theorem busWrite_follows (r : RegNum) (v : Byte) (s : State) : Follows s (busWrite r v s).2 :=
  .of_transportOnly (busWrite_transportOnly r v s) (transaction_appends _ (writeParts_appends s.busAddr r v) s)

theorem applySoft_follows (l : WriteList) (s : State) : Follows s (applySoft l s) := by
  induction l generalizing s with
  | nil => exact .refl s
  | cons w l ih => exact (busWrite_follows w.1 w.2 s).trans (ih _)

theorem applyHard_follows (l : WriteList) (s : State) : Follows s (applyHard l s).2 := by
  induction l generalizing s with
  | nil => exact .refl s
  | cons w l ih =>
    have h := busWrite_follows w.1 w.2 s
    unfold applyHard
    split
    · exact h.trans (ih _)
    · exact h

theorem instant_follows (s : State) : Follows s (instant s).2 := busRead_follows _ _ s

theorem sampleLine_follows (s : State) : Follows s (sampleLine s) := .of_lineOnly (sampleLine_lineOnly s)

theorem captureBlocks_follows (n : Nat) (s : State) : Follows s (captureBlocks n s) := by
  have h := busRead_follows s.cfg.regOut (bytesPerSample * n) s
  unfold captureBlocks; dsimp only
  split <;> exact h.trans (.of_eq rfl rfl rfl)

theorem capture_follows (s : State) : Follows s (capture s) := by
  have h := busRead_follows s.cfg.regFifoSrc 1 s
  unfold capture; dsimp only
  split
  · exact h.trans (captureBlocks_follows _ _)
  · exact h.trans (.of_eq rfl rfl rfl)

/-! ## SERVICE (43_wake_sequencer.md R181) -/

theorem readInt1_follows (s : State) : Follows s (readInt1 s) := by
  have h := busRead_follows s.cfg.regInt1Src 1 s
  unfold readInt1; dsimp only
  split <;> exact h.trans (.of_eq rfl rfl rfl)

theorem readInt2_follows (s : State) : Follows s (readInt2 s) := by
  have h := busRead_follows s.cfg.regInt2Src 1 s
  unfold readInt2; dsimp only
  split <;> exact h.trans (.of_eq rfl rfl rfl)

theorem readClick_follows (s : State) : Follows s (readClick s) := by
  have h := busRead_follows s.cfg.regClickSrc 1 s
  unfold readClick; dsimp only
  split <;> exact h.trans (.of_eq rfl rfl rfl)

theorem statusPass_follows (s : State) : Follows s (statusPass s) :=
  ((readInt1_follows s).trans (readInt2_follows _)).trans (readClick_follows _)

theorem rereadPass_follows (s : State) : Follows s (rereadPass s) := by
  have hc : Follows s { s with spinCount := s.spinCount + 1 } := .of_eq rfl rfl rfl
  exact hc.trans (statusPass_follows _)

theorem spinWait_follows (k : Nat) (s : State) : Follows s (spinWait k s) :=
  spinWait_preserves (Follows s) (fun t h => h.trans (sampleLine_follows t)) (fun t h => h.trans (rereadPass_follows t))
    (fun l t h => h.trans (applySoft_follows l t)) k s (.refl s)

theorem setWakeState_follows (w : WakeState) (s : State) : Follows s { s with wakeState := w } := .of_eq rfl rfl rfl

theorem advanceUp_follows (s : State) : Follows s (advanceUp s) := by
  have h := capture_follows s
  unfold advanceUp; dsimp only
  split <;> exact (h.trans (applySoft_follows _ _)).trans (setWakeState_follows _ _)

theorem advance_follows (s : State) : Follows s (advance s) := by
  unfold advance
  split
  · exact setWakeState_follows _ s
  · split
    · exact (applySoft_follows _ s).trans (setWakeState_follows _ _)
    · split
      · exact advanceUp_follows s
      · exact setWakeState_follows _ s
    all_goals exact .refl s

theorem serviceStart_follows (s : State) : Follows s (serviceStart s) := by
  have he : Follows s s.enterService := .of_eq rfl rfl rfl
  exact (he.trans (statusPass_follows _)).trans (.of_eq rfl rfl rfl)

theorem leaveService_follows (s : State) : Follows s s.leaveService := .of_eq rfl rfl rfl

theorem service_follows (s : State) : Follows s (service s) := by
  have h := ((serviceStart_follows s).trans (spinWait_follows (spinMax + 1) _)).trans (advance_follows _)
  rw [service_eq]
  exact h.trans (leaveService_follows _)

/-! ## The parts of the commands -/

theorem probe_follows (a : BusAddr) (s : State) : Follows s (probe a s).2 := by
  have ha : Follows s { s with busAddr := a } := .of_eq rfl rfl rfl
  exact ha.trans (busRead_follows _ _ _)

theorem checkIdentity_follows (v : Byte) (s : State) : Follows s (checkIdentity v s) := by
  unfold checkIdentity
  split
  · exact (Follows.refl s).respond _ _ _
  · exact (Follows.refl s).raiseFatal _

theorem initBody_follows (s : State) : Follows s (initBody s) := by
  have hp := probe_follows s.cfg.addrPrimary s
  have hq := hp.trans (probe_follows s.cfg.addrSecondary _)
  unfold initBody; dsimp only
  split
  · exact hp.trans (checkIdentity_follows _ _)
  · split
    · exact hq.trans (checkIdentity_follows _ _)
    · exact hq.raiseFatal _

/-- SLEEP's arming of the wake machine and of servicing (41_device_config.md R132). -/
theorem armWake_follows (s : State) : Follows s { armWake s with irqEn := true } := by
  unfold armWake
  split
  · exact (applySoft_follows _ s).trans (.of_eq rfl rfl rfl)
  · exact .of_eq rfl rfl rfl

theorem updateDownLatch_follows (now : Time) (v : Option Sample) (s : State) : Follows s (updateDownLatch now v s) := by
  unfold updateDownLatch
  split
  · split
    · split <;> exact .of_eq rfl rfl rfl
    · exact .of_eq rfl rfl rfl
  · exact .refl s

theorem takeClick_follows (now : Time) (f : ClickFlags) (s : State) : Follows s (takeClick now f s).2 := by
  unfold takeClick
  split <;> exact .of_eq rfl rfl rfl

theorem pollClick_follows (now : Time) (s : State) : Follows s (pollClick now s).2 := by
  have hl := sampleLine_follows s
  have hr := hl.trans (busRead_follows (sampleLine s).cfg.regClickSrc 1 _)
  unfold pollClick; dsimp only
  split
  · split
    · exact hl
    · split
      · exact hr.trans (takeClick_follows _ _ _)
      · exact hr
  · exact hl.trans (.of_eq rfl rfl rfl)

theorem pollOriented_follows (s : State) : Follows s (pollOriented s) := by
  have h : Follows s (pollExpired s) := .of_eq rfl rfl rfl
  exact (h.trans (instant_follows _)).trans (updateDownLatch_follows _ _ _)

theorem enterForeground_follows (s : State) : Follows s s.enterForeground := .of_eq rfl rfl rfl

theorem answerIllegal_follows (s : State) : Follows s (answerIllegal s) := (enterForeground_follows s).respond _ _ _

/-! ## Every command and every step -/

theorem exec_follows {s t : State} {i : Instr} (he : exec i s = .next t) : Follows s t := by
  have hf := enterForeground_follows s
  have hi := hf.trans (instant_follows s.enterForeground)
  cases i with
  | read r n =>
    have hr := hf.trans (busRead_follows r n.toNat _)
    cases he; dsimp only
    split
    · exact answerIllegal_follows s
    · split <;> exact hr.respond _ _ _
  | write r v =>
    cases he
    exact (hf.trans (busWrite_follows r v _)).respond _ _ _
  | setaddr b =>
    have ha : Follows s { s.enterForeground with busAddr := candidateAddr s.cfg b } := .of_eq rfl rfl rfl
    cases he
    exact ha.respond _ _ _
  | init =>
    simp only [exec, execInit] at he
    split at he
    · cases he
    · cases he; exact hf.trans (initBody_follows _)
  | enable =>
    have hd : Follows s { s.enterForeground with irqEn := false, irqPending := false } := .of_eq rfl rfl rfl
    have hh := (hd.trans (applySoft_follows s.cfg.activeSoft _)).trans (applyHard_follows s.cfg.activeHard _)
    cases he; dsimp only
    split
    · exact hh.respond _ _ _
    · exact hh.raiseFatal _
  | sleep =>
    have hc : Follows s { s.enterForeground with fastCount := 0, slowCount := 0, depth := 0 } := .of_eq rfl rfl rfl
    have ha := (hc.trans (applySoft_follows s.cfg.sleepList _)).trans (armWake_follows _)
    cases he
    exact ha.respond _ _ _
  | readInstant =>
    cases he; dsimp only
    split <;> exact hi.respond _ _ _
  | wakeupCheck =>
    cases he
    split
    case _ => exact hf.respond _ _ _
    case _ => exact hi.respond _ _ _
    all_goals exact hf.respond _ _ _
  | eventFlags =>
    rw [execEventFlags_eq] at he
    cases he
    exact ((pollOriented_follows s).trans (pollClick_follows _ _)).respond _ _ _
  | eventsClear =>
    have hc : Follows s { s.enterForeground with fastCount := 0, slowCount := 0 } := .of_eq rfl rfl rfl
    cases he
    exact hc.respond _ _ _

/-- The seven ways a step answers a next state, each a chain of operations with a frame of its own above. -/
theorem step_follows {s t : State} (h : step s = .next t) : Follows s t := by
  have hs : Follows s s.takeEvent := .of_eq rfl rfl rfl
  obtain ⟨l, -, rfl⟩ | ⟨l, -, rfl⟩ | ⟨w, i, -, -, -, he⟩ | ⟨w, e, -, -, -, rfl⟩ | ⟨w, -, -, -, -, rfl⟩ | ⟨-, -, -, rfl⟩ |
    ⟨-, -, rfl⟩ := step_cases h
  · exact hs.trans (.of_lineOnly (lineStep_lineOnly l _))
  · exact hs.trans (.of_eq rfl rfl rfl)
  · exact hs.trans (exec_follows he)
  · exact hs.trans (answerIllegal_follows _)
  · exact service_follows s
  · exact hs.trans (service_follows _)
  · exact hs

/-- Settles O60: every operation, and so every step, keeps the parameters and extends the records. -/
theorem parametersNeverChangeAndRecordsGrow : Obligations.ParametersNeverChangeAndRecordsGrow := by
  intro s t hst
  obtain ⟨hcfg, hresponses, htrace⟩ := step_follows hst
  exact ⟨hcfg, hresponses, htrace⟩

end Sys2Proof.Machine
end

section
/-! SUPPORT. A command word and its fields (30_encoding.md R90 to R93, R106): a word is its four fields, the encoder writes them,
and the decoder accepts a word exactly when they are the fields of a well-formed command. -/

namespace Sys2Proof

variable {w : CmdWord} {i j : Instr} {a b : Byte}

/-! ## The four fields -/

/-- A word has no bits beyond its four fields (R90). -/
theorem eq_iff_fields_eq {v w : CmdWord} :
    v = w ↔ rsvField v = rsvField w ∧ opField v = opField w ∧ aField v = aField w ∧ bField v = bField w := by
  constructor
  · rintro rfl
    exact ⟨rfl, rfl, rfl, rfl⟩
  · simp only [opField, rsvField, aField, bField, ← BitVec.toNat_inj, BitVec.extractLsb'_toNat, Nat.shiftRight_eq_div_pow]
    omega

theorem encode_fields (i : Instr) : Laws.EncodedFields.Statement i := Laws.EncodedFields.fields_of_assembled _ _ _

/-! ## The operands (R91) -/

/-- A register number is the byte with its bit 7 clear. -/
theorem eq_setWidth_regNum_iff {r : RegNum} : a = r.setWidth 8 ↔ a.getLsbD 7 = false ∧ r = a.extractLsb' 0 7 := by
  simp only [← BitVec.toNat_inj, BitVec.toNat_setWidth, BitVec.extractLsb'_toNat, BitVec.getLsbD,
    Nat.testBit_eq_decide_div_mod_eq, decide_eq_false_iff_not, Nat.shiftRight_zero]
  omega

/-- SETADDR's operand is the byte with all but its bit 0 clear. -/
theorem eq_setWidth_select_iff {s : BitVec 1} : a = s.setWidth 8 ↔ a.extractLsb' 1 7 = 0 ∧ s = a.extractLsb' 0 1 := by
  simp only [← BitVec.toNat_inj, BitVec.toNat_setWidth, BitVec.extractLsb'_toNat, Nat.shiftRight_eq_div_pow]
  simp
  omega

theorem bareCommand_eq_ok : bareCommand j a b = .ok i ↔ a = 0 ∧ b = 0 ∧ j = i := by
  unfold bareCommand
  split <;> simp_all

theorem decodeRead_eq_ok : decodeRead a b = .ok i ↔ ∃ r : RegNum, a = r.setWidth 8 ∧ b ≠ 0 ∧ .read r b = i := by
  simp only [eq_setWidth_regNum_iff, decodeRead]
  split
  · simp_all
  · split <;> simp_all

theorem decodeWrite_eq_ok : decodeWrite a b = .ok i ↔ ∃ r : RegNum, a = r.setWidth 8 ∧ .write r b = i := by
  simp only [eq_setWidth_regNum_iff, decodeWrite]
  split <;> simp_all

theorem decodeSetaddr_eq_ok :
    decodeSetaddr a b = .ok i ↔ ∃ s : BitVec 1, a = s.setWidth 8 ∧ b = 0 ∧ .setaddr s = i := by
  simp only [eq_setWidth_select_iff, decodeSetaddr]
  split <;> simp_all

/-- The operands as the decoder takes them for the operation code of a command. -/
def decodeOperands (a b : Byte) : Instr → Except DecodeError Instr
  | .read _ _ => decodeRead a b
  | .write _ _ => decodeWrite a b
  | .setaddr _ => decodeSetaddr a b
  | i => bareCommand i a b

theorem decode_eq_decodeOperands (hr : rsvField w = 0) (ho : opField w = opcodeOf j) :
    decode w = decodeOperands (aField w) (bField w) j := by
  unfold decode
  rw [if_neg (not_not_intro hr), ho]
  cases j <;> rfl

/-- The operands of a well-formed command, and no others, decode to it. -/
theorem decodeOperands_eq_ok_iff :
    decodeOperands a b i = .ok i ↔ a = operandA i ∧ b = operandB i ∧ i.wf = true := by
  cases i with
  | read r n =>
    simp only [decodeOperands, decodeRead_eq_ok, operandA, operandB, Instr.wf, Instr.read.injEq, bne_iff_ne]
    constructor
    · rintro ⟨_, ha, hb, rfl, rfl⟩
      exact ⟨ha, rfl, hb⟩
    · rintro ⟨ha, rfl, hb⟩
      exact ⟨r, ha, hb, rfl, rfl⟩
  | write r v => simp [decodeOperands, decodeWrite_eq_ok, operandA, operandB, Instr.wf]
  | setaddr s => simp [decodeOperands, decodeSetaddr_eq_ok, operandA, operandB, Instr.wf]
  | init | enable | sleep | readInstant | wakeupCheck | eventFlags | eventsClear =>
    simp [decodeOperands, bareCommand_eq_ok, operandA, operandB, Instr.wf]

/-! ## The whole word -/

theorem rsvField_opField_of_decode_ok (h : decode w = .ok i) : rsvField w = 0 ∧ opField w = opcodeOf i := by
  unfold decode at h
  split at h
  · cases h
  next hr =>
  refine ⟨not_not.1 hr, ?_⟩
  split at h
  next ho => obtain ⟨_, -, -, rfl⟩ := decodeRead_eq_ok.1 h; exact BitVec.eq_of_toNat_eq ho
  next ho => obtain ⟨_, -, rfl⟩ := decodeWrite_eq_ok.1 h; exact BitVec.eq_of_toNat_eq ho
  next ho => obtain ⟨_, -, -, rfl⟩ := decodeSetaddr_eq_ok.1 h; exact BitVec.eq_of_toNat_eq ho
  case h_11 => cases h
  all_goals
    next ho => obtain ⟨-, -, rfl⟩ := bareCommand_eq_ok.1 h; exact BitVec.eq_of_toNat_eq ho

/-- The decoder and the encoder agree: a word decodes to a command exactly when it is the word of that command, well formed. -/
theorem decode_eq_ok_iff : decode w = .ok i ↔ encode i = w ∧ i.wf = true := by
  obtain ⟨ho, hr, ha, hb⟩ := encode_fields i
  constructor
  · intro h
    obtain ⟨hrw, how⟩ := rsvField_opField_of_decode_ok h
    rw [decode_eq_decodeOperands hrw how, decodeOperands_eq_ok_iff] at h
    obtain ⟨haw, hbw, hwf⟩ := h
    exact ⟨eq_iff_fields_eq.2 ⟨hr.trans hrw.symm, ho.trans how.symm, ha.trans haw.symm, hb.trans hbw.symm⟩, hwf⟩
  · rintro ⟨rfl, hwf⟩
    rw [decode_eq_decodeOperands hr ho, decodeOperands_eq_ok_iff]
    exact ⟨ha, hb, hwf⟩

/-- Settles O1: the word of a well-formed command decodes to it. -/
theorem decodeOfEncodeIsTheCommand : Obligations.DecodeOfEncodeIsTheCommand := fun _ hwf =>
  decode_eq_ok_iff.2 ⟨rfl, hwf⟩

/-- Settles O2, the other direction of the same equivalence. -/
theorem encodeOfDecodeIsTheWord : Obligations.EncodeOfDecodeIsTheWord := fun _ _ h =>
  decode_eq_ok_iff.1 h

end Sys2Proof
end

section
/-! SUPPORT. The rows of the opcode table (30_encoding.md R92), field by field: what a row asks of a word is what the decoder asks
(R107). -/

namespace Sys2Proof.Machine

variable {w : CmdWord} {i j : Instr} {a b : Byte} {row : CmdWord × CmdWord}

theorem exists_row (i : Instr) : ∃ row, opcodeRows[rowOf i]? = some row := by
  cases i <;> exact ⟨_, rfl⟩

theorem exists_rowOf (h : row ∈ opcodeRows) : ∃ j, opcodeRows[rowOf j]? = some row := by
  simp only [opcodeRows, List.mem_cons, List.not_mem_nil, or_false] at h
  obtain rfl | rfl | rfl | rfl | rfl | rfl | rfl | rfl | rfl | rfl := h
  exacts [⟨.read 0 1, rfl⟩, ⟨.write 0 0, rfl⟩, ⟨.setaddr 0, rfl⟩, ⟨.init, rfl⟩, ⟨.enable, rfl⟩, ⟨.sleep, rfl⟩,
    ⟨.readInstant, rfl⟩, ⟨.wakeupCheck, rfl⟩, ⟨.eventFlags, rfl⟩, ⟨.eventsClear, rfl⟩]

/-- A row's mask covers `op` and `rsv`; its match is the operation code, with every other field 0. -/
theorem row_fields (h : opcodeRows[rowOf j]? = some row) :
    (opField row.1 = 0xF ∧ rsvField row.1 = 0xF) ∧
      opField row.2 = opcodeOf j ∧ rsvField row.2 = 0 ∧ aField row.2 = 0 ∧ bField row.2 = 0 := by
  cases j <;> cases h <;> exact ⟨⟨rfl, rfl⟩, rfl, rfl, rfl, rfl⟩

theorem selects_iff_fields (h : opcodeRows[rowOf j]? = some row) :
    selects row w ↔ rsvField w = 0 ∧ opField w = opcodeOf j ∧ aField w &&& aField row.1 = 0 ∧ bField w &&& bField row.1 = 0 := by
  obtain ⟨⟨hom, hrm⟩, ho, hr, ha, hb⟩ := row_fields h
  have hand (x : BitVec 4) : x &&& 0xF = x := BitVec.and_allOnes
  rw [selects, eq_iff_fields_eq, ho, hr, ha, hb]
  simp only [opField, rsvField, aField, bField, BitVec.extractLsb'_and] at hom hrm ⊢
  rw [hom, hrm, hand, hand]

theorem and_0x80_eq_zero_iff : a &&& 0x80#8 = 0#8 ↔ a[7] = false := by
  revert a
  decide

theorem and_0xFE_eq_zero_iff : a &&& 0xFE#8 = 0#8 ↔ a.extractLsb' 1 7 = 0#7 := by
  revert a
  decide

theorem and_0xFF (a : Byte) : a &&& 0xFF#8 = a := BitVec.and_allOnes

/-- The operands that decode are those with the bits of the row's mask 0, and for READ with a count that is not 0 (R93). -/
theorem exists_decodeOperands_eq_ok_iff (h : opcodeRows[rowOf j]? = some row) :
    (∃ i, decodeOperands a b j = .ok i) ↔
      a &&& aField row.1 = 0 ∧ b &&& bField row.1 = 0 ∧ (row.2 = 0x100000 → b ≠ 0) := by
  cases j <;> cases h
  case read =>
    change _ ↔ a &&& 0x80 = 0 ∧ b &&& 0 = 0 ∧ _
    simp [decodeOperands, decodeRead_eq_ok, eq_setWidth_regNum_iff, and_0x80_eq_zero_iff]
  case write =>
    change _ ↔ a &&& 0x80 = 0 ∧ b &&& 0 = 0 ∧ _
    simp [decodeOperands, decodeWrite_eq_ok, eq_setWidth_regNum_iff, and_0x80_eq_zero_iff]
  case setaddr =>
    change _ ↔ a &&& 0xFE = 0 ∧ b &&& 0xFF = 0 ∧ _
    simp [decodeOperands, decodeSetaddr_eq_ok, eq_setWidth_select_iff, and_0xFE_eq_zero_iff, and_0xFF]
  all_goals
    change _ ↔ a &&& 0xFF = 0 ∧ b &&& 0xFF = 0 ∧ _
    simp [decodeOperands, bareCommand_eq_ok, and_0xFF]

theorem selects_of_decode_ok (hd : decode w = .ok i) (h : opcodeRows[rowOf i]? = some row) :
    selects row w ∧ (row.2 = 0x100000 → bField w ≠ 0) := by
  obtain ⟨hr, ho⟩ := rsvField_opField_of_decode_ok hd
  rw [decode_eq_decodeOperands hr ho] at hd
  obtain ⟨ha, hb, hcount⟩ := (exists_decodeOperands_eq_ok_iff h).1 ⟨i, hd⟩
  exact ⟨(selects_iff_fields h).2 ⟨hr, ho, ha, hb⟩, hcount⟩

theorem decode_ok_of_selects (h : row ∈ opcodeRows) (hs : selects row w) (hcount : row.2 = 0x100000 → bField w ≠ 0) :
    ∃ i, decode w = .ok i := by
  obtain ⟨j, hj⟩ := exists_rowOf h
  obtain ⟨hr, ho, ha, hb⟩ := (selects_iff_fields hj).1 hs
  rw [decode_eq_decodeOperands hr ho]
  exact (exists_decodeOperands_eq_ok_iff hj).2 ⟨ha, hb, hcount⟩

/-- Two rows exclude each other when their matches differ on a bit that both masks cover. -/
theorem not_selects_both {p q : CmdWord × CmdWord} (h : p.2 &&& q.1 ≠ q.2 &&& p.1) : ¬ (selects p w ∧ selects q w) := by
  rintro ⟨hp, hq⟩
  rw [← hp, ← hq] at h
  exact h (by ac_rfl)

theorem opcodeRows_differ : opcodeRows.Pairwise fun p q => p.2 &&& q.1 ≠ q.2 &&& p.1 := by decide

/-- Settles O3: a word's decoding and the row it selects come down to the same fields; two rows differ in `op`. -/
theorem wordsDecodeByTheOpcodeTable : Obligations.WordsDecodeByTheOpcodeTable := by
  refine ⟨fun w => ⟨fun ⟨i, hd⟩ => ?_, fun ⟨row, hrow, hs, hcount⟩ => decode_ok_of_selects hrow hs hcount⟩, fun w i hd => ?_,
    opcodeRows_differ.imp fun h w => not_selects_both h⟩
  · obtain ⟨row, hrow⟩ := exists_row i
    exact ⟨row, List.mem_of_getElem? hrow, selects_of_decode_ok hd hrow⟩
  · obtain ⟨row, hrow⟩ := exists_row i
    exact ⟨row, hrow, (selects_of_decode_ok hd hrow).1⟩

end Sys2Proof.Machine
end

section
/-! SUPPORT. A command word that is illegal (30_encoding.md R93) or written out from the table (R106). -/

namespace Sys2Proof.Machine

variable {s : State} {w : CmdWord}

theorem runWord_of_decode_error {e : DecodeError} (hd : decode w = .error e) (s : State) :
    runWord w s = .next (answerIllegal s) := by
  simp only [runWord, hd]

theorem cmdReady_iff : s.cmdReady = true ↔ s.halted = false ∧ s.ctx = .idle ∧ s.irqPending = false := by
  simp [State.cmdReady, and_assoc]

/-- Of an idle block the answer to an illegal word shows only in the responses: `ctx` is idle again. -/
theorem answerIllegal_of_ctx_idle (h : s.ctx = .idle) :
    answerIllegal s = { s with responses := s.responses ++ [⟨.errCmd, 0, []⟩] } := by
  simp only [answerIllegal, State.respond, State.enterForeground, ← h]

/-- Settles O4: a word that selects no row does not decode, so the step that takes it only answers. -/
theorem illegalWordIsAnsweredErrCmd : Obligations.IllegalWordIsAnsweredErrCmd := by
  intro s w hr hw hrows
  obtain ⟨-, hctx, -⟩ := cmdReady_iff.1 hr
  have hd : ∃ e, decode w = .error e := by
    cases hd : decode w with
    | error e => exact ⟨e, rfl⟩
    | ok i =>
      obtain ⟨row, hrow, hs⟩ := (wordsDecodeByTheOpcodeTable.1 w).1 ⟨i, hd⟩
      exact absurd hs (hrows row hrow)
  obtain ⟨e, he⟩ := hd
  calc step s = offerWord w s := step_of_nextEvent_command hw
    _ = runWord w s.takeEvent := offerWord_of_cmdReady w hr
    _ = .next (answerIllegal s.takeEvent) := runWord_of_decode_error he _
    _ = _ := congrArg _ (answerIllegal_of_ctx_idle (s := s.takeEvent) hctx)

/-- Settles O5, by running the decoder on each word. -/
theorem exampleWordsDecode : Obligations.ExampleWordsDecode := by
  unfold Obligations.ExampleWordsDecode
  decide

end Sys2Proof.Machine
end

section
/-! SUPPORT. The bytes of a frame (30_encoding.md R95, R96) and of a source register (R99, R100). -/

namespace Sys2Proof.Machine

variable {p : Params}

/-- A flag outside the seven register-number bits is bit 7 (00_scope.md R5). -/
theorem consecFlag_eq (h : p.wf) : p.consecFlag = 0x80 := by
  have hbit : ∀ f : Byte, f &&& 0x7F = 0 → f ≠ 0 → f = 0x80 := by decide
  obtain ⟨hlow, hne, -⟩ := h
  exact hbit _ hlow hne

theorem addressByte_fields (a : BusAddr) (rw : Bool) :
    (addressByte a rw).extractLsb' 1 7 = a ∧ (addressByte a rw).getLsbD 0 = rw :=
  ⟨BitVec.extractLsb'_append_eq_left, BitVec.getLsbD_append.trans (by simp)⟩

theorem writeRegisterByte_fields (r : RegNum) :
    (writeRegisterByte r).extractLsb' 0 7 = r ∧ (writeRegisterByte r).getLsbD 7 = false := by
  obtain ⟨hbit, hlow⟩ := eq_setWidth_regNum_iff.1 (rfl : writeRegisterByte r = r.setWidth 8)
  exact ⟨hlow.symm, hbit⟩

theorem readRegisterByte_eq (h : p.wf) (r : RegNum) (n : Nat) :
    readRegisterByte p r n = writeRegisterByte r ||| if 1 < n then 0x80 else 0 := by
  unfold readRegisterByte
  rw [consecFlag_eq h]
  split
  · rfl
  · exact BitVec.or_zero.symm

/-- The flag is the bit that a register number leaves free (R96). -/
theorem readRegisterByte_fields (h : p.wf) (r : RegNum) (n : Nat) :
    (readRegisterByte p r n).extractLsb' 0 7 = r ∧
      readRegisterByte p r n &&& p.consecFlag = if 1 < n then p.consecFlag else 0 := by
  obtain ⟨hlow, hbit⟩ := writeRegisterByte_fields r
  have hfree : writeRegisterByte r &&& 0x80 = 0 := and_0x80_eq_zero_iff.2 hbit
  rw [readRegisterByte_eq h, consecFlag_eq h, BitVec.extractLsb'_or, hlow, BitVec.and_comm, BitVec.and_or_distrib_left,
    BitVec.and_comm, hfree]
  split <;> exact ⟨BitVec.or_zero, rfl⟩

/-- Settles O6, byte by byte. -/
theorem frameBytesCarryAddressAndRegister : Obligations.FrameBytesCarryAddressAndRegister :=
  ⟨addressByte_fields, writeRegisterByte_fields, fun _ r n h => readRegisterByte_fields h r n⟩

/-- Settles O39: each field is one bit of the byte, and a bit of an OR is the OR of the bits. -/
theorem decodingFlagsRespectsOr : Obligations.DecodingFlagsRespectsOr :=
  ⟨fun l a b => by simp only [decodeMotion, MotionFlags.or, BitVec.getLsbD_or],
    fun l a b => by simp only [decodeClick, ClickFlags.or, BitVec.getLsbD_or]⟩

end Sys2Proof.Machine
end

section
/-! SUPPORT. The answer to a command (30_encoding.md R94): what happens inside a command answers nothing and does not halt, and at
its end stands one response or one fatal. -/

namespace Sys2Proof.Machine

/-- Between `s` and `t` nothing was answered, and the block did not halt. -/
structure Silent (s t : State) : Prop where
  halted : t.halted = s.halted
  responses : t.responses = s.responses

/-- A command begun in `s` has ended in `t`: answered once, or fatally and not answered (R94, 60_exceptions.md R252). -/
def Answered (s t : State) : Prop :=
  (t.halted = s.halted ∧ ∃ r, t.responses = s.responses ++ [r]) ∨ (t.halted = true ∧ t.responses = s.responses)

namespace Silent

variable {s t u : State}

theorem refl (s : State) : Silent s s := ⟨rfl, rfl⟩

theorem trans (h : Silent s t) (g : Silent t u) : Silent s u := ⟨g.halted.trans h.halted, g.responses.trans h.responses⟩

theorem of_transportOnly (h : TransportOnly s t) : Silent s t := ⟨h.halted, h.responses⟩

theorem of_lineOnly (h : LineOnly s t) : Silent s t := ⟨h.halted, h.responses⟩

theorem respond (h : Silent s t) (st : Status) (v : Byte) (d : List Byte) : Answered s (t.respond st v d) :=
  .inl ⟨h.halted, _, congrArg (· ++ [(⟨st, v, d⟩ : Response)]) h.responses⟩

theorem raiseFatal (h : Silent s t) (code : Nat) : Answered s (t.raiseFatal code) := .inr ⟨rfl, h.responses⟩

theorem answered (h : Silent s t) (g : Answered t u) : Answered s u := by
  rwa [Answered, h.halted, h.responses] at g

end Silent

/-! ## The parts of the commands -/

theorem busRead_silent (r : RegNum) (n : Nat) (s : State) : Silent s (busRead r n s).2 :=
  .of_transportOnly (busRead_transportOnly r n s)

theorem applySoft_silent (l : WriteList) (s : State) : Silent s (applySoft l s) :=
  .of_transportOnly (applySoft_transportOnly l s)

theorem enterForeground_silent (s : State) : Silent s s.enterForeground := ⟨rfl, rfl⟩

theorem instant_silent (s : State) : Silent s (instant s).2 := busRead_silent _ _ s

theorem probe_silent (a : BusAddr) (s : State) : Silent s (probe a s).2 := by
  have ha : Silent s { s with busAddr := a } := ⟨rfl, rfl⟩
  exact ha.trans (busRead_silent _ _ _)

theorem checkIdentity_answered (v : Byte) (s : State) : Answered s (checkIdentity v s) := by
  unfold checkIdentity
  split
  · exact (Silent.refl s).respond _ _ _
  · exact (Silent.refl s).raiseFatal _

theorem initBody_answered (s : State) : Answered s (initBody s) := by
  have hp := probe_silent s.cfg.addrPrimary s
  have hq := hp.trans (probe_silent s.cfg.addrSecondary _)
  unfold initBody; dsimp only
  split
  · exact hp.answered (checkIdentity_answered _ _)
  · split
    · exact hq.answered (checkIdentity_answered _ _)
    · exact hq.raiseFatal _

theorem armWake_silent (s : State) : Silent s { armWake s with irqEn := true } := by
  unfold armWake
  split
  · exact (applySoft_silent _ s).trans ⟨rfl, rfl⟩
  · exact ⟨rfl, rfl⟩

theorem updateDownLatch_silent (now : Time) (v : Option Sample) (s : State) : Silent s (updateDownLatch now v s) := by
  unfold updateDownLatch
  split
  · split
    · split <;> exact ⟨rfl, rfl⟩
    · exact ⟨rfl, rfl⟩
  · exact .refl s

theorem takeClick_silent (now : Time) (f : ClickFlags) (s : State) : Silent s (takeClick now f s).2 := by
  unfold takeClick
  split <;> exact ⟨rfl, rfl⟩

theorem pollClick_silent (now : Time) (s : State) : Silent s (pollClick now s).2 := by
  have hl : Silent s (sampleLine s) := .of_lineOnly (sampleLine_lineOnly s)
  have hr := hl.trans (busRead_silent (sampleLine s).cfg.regClickSrc 1 _)
  unfold pollClick; dsimp only
  split
  · split
    · exact hl
    · split
      · exact hr.trans (takeClick_silent _ _ _)
      · exact hr
  · exact hl.trans ⟨rfl, rfl⟩

theorem pollOriented_silent (s : State) : Silent s (pollOriented s) := by
  have h : Silent s (pollExpired s) := ⟨rfl, rfl⟩
  exact (h.trans (instant_silent _)).trans (updateDownLatch_silent _ _ _)

theorem answerIllegal_answered (s : State) : Answered s (answerIllegal s) := (enterForeground_silent s).respond _ _ _

/-! ## Every command -/

theorem exec_answered {s t : State} {i : Instr} (he : exec i s = .next t) : Answered s t := by
  have hf := enterForeground_silent s
  have hi := hf.trans (instant_silent s.enterForeground)
  cases i with
  | read r n =>
    have hr := hf.trans (busRead_silent r n.toNat _)
    cases he; dsimp only
    split
    · exact answerIllegal_answered s
    · split <;> exact hr.respond _ _ _
  | write r v =>
    have hw := hf.trans (.of_transportOnly (busWrite_transportOnly r v _))
    cases he
    exact hw.respond _ _ _
  | setaddr b =>
    have ha : Silent s { s.enterForeground with busAddr := candidateAddr s.cfg b } := ⟨rfl, rfl⟩
    cases he
    exact ha.respond _ _ _
  | init =>
    simp only [exec, execInit] at he
    split at he
    · cases he
    · cases he; exact hf.answered (initBody_answered _)
  | enable =>
    have hd : Silent s { s.enterForeground with irqEn := false, irqPending := false } := ⟨rfl, rfl⟩
    have hh := (hd.trans (applySoft_silent s.cfg.activeSoft _)).trans
      (.of_transportOnly (applyHard_transportOnly s.cfg.activeHard _))
    cases he; dsimp only
    split
    · exact hh.respond _ _ _
    · exact hh.raiseFatal _
  | sleep =>
    have hc : Silent s { s.enterForeground with fastCount := 0, slowCount := 0, depth := 0 } := ⟨rfl, rfl⟩
    have ha := (hc.trans (applySoft_silent s.cfg.sleepList _)).trans (armWake_silent _)
    cases he
    exact ha.respond _ _ _
  | readInstant =>
    cases he; dsimp only
    split <;> exact hi.respond _ _ _
  | wakeupCheck =>
    cases he
    split
    case _ => exact hf.respond _ _ _
    case _ => exact hi.respond _ _ _
    all_goals exact hf.respond _ _ _
  | eventFlags =>
    rw [execEventFlags_eq] at he
    cases he
    exact ((pollOriented_silent s).trans (pollClick_silent _ _)).respond _ _ _
  | eventsClear =>
    have hc : Silent s { s.enterForeground with fastCount := 0, slowCount := 0 } := ⟨rfl, rfl⟩
    cases he
    exact hc.respond _ _ _

theorem runWord_answered {s t : State} {w : CmdWord} (h : runWord w s = .next t) : Answered s t := by
  cases hd : decode w with
  | ok i => exact exec_answered ((runWord_of_decode_ok hd s).symm.trans h)
  | error e =>
    rw [runWord_of_decode_error hd] at h
    cases h
    exact answerIllegal_answered s

/-- Settles O59: a ready port takes the word, and running it ends in one answer or one fatal. -/
theorem everyCommandIsAnsweredOnce : Obligations.EveryCommandIsAnsweredOnce := by
  intro s t w hr hw hst
  rw [step_of_nextEvent_command hw, offerWord_of_cmdReady w hr] at hst
  obtain ⟨hh, -, -⟩ := cmdReady_iff.1 hr
  have h : Answered s.takeEvent t := runWord_answered hst
  rwa [Answered, State.takeEvent_halted, hh] at h

end Sys2Proof.Machine
end

section
/-! SUPPORT. The wait points of one transaction (40_transport.md R124, R125, R128): its parts run up to the first wait point that
does not go well, a STOP ends it, and so a READ takes at most `count + 6` wait points and a WRITE at most 5. -/

namespace Sys2Proof.Machine

variable {s : State} {sends : List Nat} {k : Nat}

/-! ## The first wait point that does not go well -/

theorem exists_failsFirstAt_iff (s : State) (sends : List Nat) (m : Nat) :
    (∃ k < m, s.FailsFirstAt sends k) ↔ ¬ ∀ k < m, s.completesAt k ∧ (k ∈ sends → (s.busAt k).ack = true) := by
  constructor
  · rintro ⟨k, hk, hf⟩ hall
    exact hf.fails (hall k hk)
  · intro h
    have hex : ∃ k, k < m ∧ ¬ (s.completesAt k ∧ (k ∈ sends → (s.busAt k).ack = true)) := by simpa using h
    obtain ⟨hlt, hfails⟩ := Nat.find_spec hex
    refine ⟨Nat.find hex, hlt, fun j hj => ?_, hfails⟩
    by_contra hn
    exact Nat.find_min hex hj ⟨hj.trans hlt, hn⟩

theorem readAcked_iff (s : State) (n : Nat) :
    s.ReadAcked 0 n ↔ ∀ k < n + 6, s.completesAt k ∧ (k ∈ [1, 2, 4] → (s.busAt k).ack = true) := by
  constructor
  · rintro ⟨hc, h1, h2, h4⟩ k hk
    refine ⟨by simpa using hc k hk, fun hm => ?_⟩
    simp only [List.mem_cons, List.not_mem_nil, or_false] at hm
    obtain rfl | rfl | rfl := hm <;> assumption
  · intro h
    exact ⟨fun j hj => by simpa using (h j hj).1, (h 1 (by omega)).2 (by simp), (h 2 (by omega)).2 (by simp),
      (h 4 (by omega)).2 (by simp)⟩

theorem writeAcked_iff (s : State) :
    s.WriteAcked 0 ↔ ∀ k < 5, s.completesAt k ∧ (k ∈ [1, 2, 3] → (s.busAt k).ack = true) := by
  constructor
  · rintro ⟨hc, h1, h2, h3⟩ k hk
    refine ⟨by simpa using hc k hk, fun hm => ?_⟩
    simp only [List.mem_cons, List.not_mem_nil, or_false] at hm
    obtain rfl | rfl | rfl := hm <;> assumption
  · intro h
    exact ⟨fun j hj => by simpa using (h j hj).1, (h 1 (by omega)).2 (by simp), (h 2 (by omega)).2 (by simp),
      (h 3 (by omega)).2 (by simp)⟩

/-- Every failed READ has a first wait point that does not go well. -/
theorem not_readAcked_iff (s : State) (n : Nat) : ¬ s.ReadAcked 0 n ↔ ∃ k < n + 6, s.FailsFirstAt [1, 2, 4] k := by
  rw [exists_failsFirstAt_iff, readAcked_iff]

/-- Every failed WRITE has a first wait point that does not go well. -/
theorem not_writeAcked_iff (s : State) : ¬ s.WriteAcked 0 ↔ ∃ k < 5, s.FailsFirstAt [1, 2, 3] k := by
  rw [exists_failsFirstAt_iff, writeAcked_iff]

/-- A wait point that sends no byte can only time out. -/
theorem State.FailsFirstAt.not_completesAt (h : s.FailsFirstAt sends k) (hk : k ∉ sends) : ¬ s.completesAt k :=
  fun hc => h.fails ⟨hc, fun hm => absurd hm hk⟩

theorem State.FailsFirstAt.enterForeground (h : s.FailsFirstAt sends k) : s.enterForeground.FailsFirstAt sends k :=
  ⟨h.before, h.fails⟩

/-! ## The parts, up to that wait point -/

/-- How the parts of a transaction that begins in `s` end when its wait point `k` is the first that does not go well. Before the
STOP, whose wait point is `last`, the part at `k` fails, and the bus holds what came before; at the STOP all parts went well. -/
def PartsEnd (s : State) (full : List BusEvent) (last k : Nat) (r : Bool × State) : Prop :=
  (k < last ∧ r.1 = false ∧ PartFails s (full.take k) k r.2 ∧
      (s.completesAt k → ∃ b, full[k]? = some (.sent b true) ∧ r.2.trace = s.trace ++ full.take k ++ [.sent b false])) ∨
    (k = last ∧ r.1 = true ∧ r.2.trace = s.trace ++ full.take last ∧ r.2.busFeed = feedSkip s.busFeed last)

section Parts

variable {full : List BusEvent} {last j : Nat} {fs : List Tx} {q : TPhase} {w : Nat}

theorem take_succ_of_getElem? {e : BusEvent} (he : full[j]? = some e) : full.take j ++ [e] = full.take (j + 1) := by
  rw [List.take_add_one, he]; rfl

/-- No part is left: only the STOP can be what does not go well. -/
theorem partsEnd_nil : PartsEnd s full last last (runParts [] (s.mid q w (full.take last) last)) :=
  .inr ⟨rfl, rfl, rfl, rfl⟩

theorem partsEnd_send (hf : s.FailsFirstAt sends k) (hj : j ≤ k) (hl : j < last) (hm : j ∈ sends) {b : Byte}
    (he : full[j]? = some (.sent b true)) (p : TPhase)
    (hrest : j + 1 ≤ k → ∀ w', PartsEnd s full last k (runParts fs (s.mid p w' (full.take (j + 1)) (j + 1)))) :
    PartsEnd s full last k (runParts (send p b :: fs) (s.mid q w (full.take j) j)) := by
  obtain hlt | rfl := hj.lt_or_eq
  · obtain ⟨hc, ha⟩ := hf.before j hlt
    rw [runParts_cons_ok (send_mid p b hc (ha hm)), take_succ_of_getElem? he]
    exact hrest hlt _
  · obtain ⟨u, hu, hp, hn⟩ := send_mid_fails (q := q) (w := w) (l := full.take j) p b
      (fun hg => hf.fails ⟨hg.1, fun _ => hg.2⟩)
    rw [runParts_cons_fails hu]
    exact .inl ⟨hl, rfl, hp, fun hc => ⟨b, he, hn hc⟩⟩

theorem partsEnd_condition (hf : s.FailsFirstAt sends k) (hj : j ≤ k) (hl : j < last) (hm : j ∉ sends) {e : BusEvent}
    (he : full[j]? = some e) (p : TPhase)
    (hrest : j + 1 ≤ k → ∀ w', PartsEnd s full last k (runParts fs (s.mid p w' (full.take (j + 1)) (j + 1)))) :
    PartsEnd s full last k (runParts (condition p e :: fs) (s.mid q w (full.take j) j)) := by
  obtain hlt | rfl := hj.lt_or_eq
  · rw [runParts_cons_ok (condition_mid p e (hf.before j hlt).1), take_succ_of_getElem? he]
    exact hrest hlt _
  · have hc := hf.not_completesAt hm
    obtain ⟨u, hu, hp⟩ := condition_mid_fails (q := q) (w := w) (l := full.take j) p e hc
    rw [runParts_cons_fails hu]
    exact .inl ⟨hl, rfl, hp, fun h => absurd h hc⟩

end Parts

/-- The trace of a READ up to its data byte `i`. -/
theorem readTrace_take_data (p : Params) (a : BusAddr) (r : RegNum) (bytes : List Byte) {i : Nat} (hi : i ≤ bytes.length) :
    (readTrace p a r bytes).take (5 + i) = (readTrace p a r bytes).take 5 ++ (dataTrace bytes).take i := by
  rw [← dataTrace_length] at hi
  rw [List.take_add]
  exact congrArg _ (List.take_append_of_le_length hi)

/-- The data bytes, which come last before the STOP. -/
theorem partsEnd_receiveAll {q : TPhase} {w n : Nat} (hn : n ≤ 255) (hf : s.FailsFirstAt [1, 2, 4] k) (h5 : 5 ≤ k)
    (hk : k ≤ n + 5) (p : Params) (a : BusAddr) (r : RegNum) :
    PartsEnd s (readTrace p a r (s.answers 0 n)) (n + 5) k
      (runParts [receiveAll n] (s.mid q w ((readTrace p a r (s.answers 0 n)).take 5) 5)) := by
  have hlen := answers_length s 0 n
  obtain ⟨i, rfl⟩ := Nat.exists_eq_add_of_le h5
  obtain hlt | heq := (show i ≤ n by omega).lt_or_eq
  · have hc : ¬ s.completesAt (5 + i) := hf.not_completesAt (by simp; omega)
    obtain ⟨u, hu, hp⟩ := receiveAll_mid_fails (q := q) (w := w) (l := (readTrace p a r (s.answers 0 n)).take 5) n i hlt
      (fun j hj => (hf.before (5 + j) (by omega)).1) hc
    rw [runParts_cons_fails hu]
    rw [← readTrace_take_data p a r _ (by omega)] at hp
    exact .inl ⟨by omega, rfl, hp, fun h => absurd h hc⟩
  · subst heq
    obtain ⟨w', hw⟩ := receiveAll_mid (q := q) (w := w) (l := (readTrace p a r (s.answers 0 i)).take 5) i hn
      (fun j hj => (hf.before (5 + j) (by omega)).1)
    rw [runParts_cons_ok hw]
    refine .inr ⟨Nat.add_comm 5 i, rfl, ?_, rfl⟩
    rw [Nat.add_comm i 5, readTrace_take_data p a r _ hlen.ge, List.take_of_length_le (l := dataTrace _)]
    · rfl
    · rw [dataTrace_length, hlen]

theorem readParts_end {n : Nat} (hn : n ≤ 255) (hf : s.FailsFirstAt [1, 2, 4] k) (h1 : 1 ≤ k) (hk : k ≤ n + 5) (r : RegNum)
    (w : Nat) :
    PartsEnd s (readTrace s.cfg s.busAddr r (s.answers 0 n)) (n + 5) k
      (runParts (readParts s.cfg s.busAddr r n) (s.mid .start w [.start] 1)) := by
  have hsub : (readTrace s.cfg s.busAddr r (s.answers 0 n))[2]? = some (.sent (readRegisterByte s.cfg r n) true) := by
    simp [readTrace, answers_length]
  refine partsEnd_send hf h1 (by omega) (by simp) rfl _ fun h2 _ => ?_
  refine partsEnd_send hf h2 (by omega) (by simp) hsub _ fun h3 _ => ?_
  refine partsEnd_condition hf h3 (by omega) (by simp) rfl _ fun h4 _ => ?_
  refine partsEnd_send hf h4 (by omega) (by simp) rfl _ fun h5 _ => ?_
  exact partsEnd_receiveAll hn hf h5 hk _ _ _

theorem writeParts_end (hf : s.FailsFirstAt [1, 2, 3] k) (h1 : 1 ≤ k) (hk : k ≤ 4) (r : RegNum) (v : Byte) (w : Nat) :
    PartsEnd s (writeTrace s.busAddr r v) 4 k (runParts (writeParts s.busAddr r v) (s.mid .start w [.start] 1)) := by
  refine partsEnd_send hf h1 (by omega) (by simp) rfl _ fun h2 _ => ?_
  refine partsEnd_send hf h2 (by omega) (by simp) rfl _ fun h3 _ => ?_
  refine partsEnd_send hf h3 (by omega) (by simp) rfl _ fun h4 _ => ?_
  obtain rfl : k = 4 := by omega
  exact partsEnd_nil

/-! ## The whole transaction -/

/-- START, the parts and the STOP: a transaction is cut short at its first wait point that does not go well (R125, R128). -/
theorem transaction_cutShort {parts : List Tx} {full : List BusEvent} {last : Nat} (hf : s.FailsFirstAt sends k)
    (hfirst : 0 ∉ sends) (hlast : last ∉ sends) (hl0 : last ≠ 0)
    (hp : 1 ≤ k → PartsEnd s full last k (runParts parts (s.mid .start (s.busAt 0).wait [.start] 1))) :
    CutShort s (transaction parts s).2 full last k := by
  obtain rfl | hk := k.eq_zero_or_pos
  · exact cutShort_of_start parts (hf.not_completesAt hfirst)
  · have h0 := (hf.before 0 hk).1
    obtain ⟨hlt, hr, hpart, hnack⟩ | ⟨rfl, hr, htrace, hfeed⟩ := hp hk
    · exact cutShort_of_part parts h0 hlt hk.ne' (Prod.ext hr rfl) hpart rfl hnack
    · exact cutShort_of_stop parts h0 hl0 (hf.not_completesAt hlast) (Prod.ext hr rfl) htrace hfeed

theorem busRead_cutShort {n : Nat} (hn : n ≤ 255) (hk : k < n + 6) (hf : s.FailsFirstAt [1, 2, 4] k) (r : RegNum) :
    CutShort s (busRead r n s).2 (readTrace s.cfg s.busAddr r (s.answers 0 n)) (n + 5) k := by
  have h := transaction_cutShort hf (by simp) (by simp) (Nat.succ_ne_zero _) fun h1 =>
    readParts_end hn hf h1 (Nat.le_of_lt_succ hk) r (s.busAt 0).wait
  unfold busRead; dsimp only
  split <;> exact h.congr rfl rfl rfl rfl rfl

theorem busWrite_cutShort (hk : k < 5) (hf : s.FailsFirstAt [1, 2, 3] k) (r : RegNum) (v : Byte) :
    CutShort s (busWrite r v s).2 (writeTrace s.busAddr r v) 4 k :=
  transaction_cutShort hf (by simp) (by simp) (by simp) fun h1 =>
    writeParts_end hf h1 (Nat.le_of_lt_succ hk) r v (s.busAt 0).wait

/-- Acknowledged or not, a READ uses at least one answer and at most `n + 6` (R124). -/
theorem busRead_feed (r : RegNum) {n : Nat} (hn : n ≤ 255) (s : State) :
    ∃ m, (busRead r n s).2.busFeed = feedSkip s.busFeed m ∧ 1 ≤ m ∧ m ≤ n + 6 := by
  by_cases h : s.ReadAcked 0 n
  · exact ⟨n + 6, by rw [busRead_done r n s hn h], by omega, le_rfl⟩
  · obtain ⟨k, hk, hf⟩ := (not_readAcked_iff s n).1 h
    exact (busRead_cutShort hn hk hf r).feed

/-- Acknowledged or not, a WRITE uses at least one answer and at most 5 (R124). -/
theorem busWrite_feed (r : RegNum) (v : Byte) (s : State) :
    ∃ m, (busWrite r v s).2.busFeed = feedSkip s.busFeed m ∧ 1 ≤ m ∧ m ≤ 5 := by
  by_cases h : s.WriteAcked 0
  · exact ⟨5, by rw [busWrite_done r v s h], by omega, le_rfl⟩
  · obtain ⟨k, hk, hf⟩ := (not_writeAcked_iff s).1 h
    exact (busWrite_cutShort hk hf r v).feed

theorem busWrite_tcount_le (r : RegNum) (v : Byte) (s : State) : (busWrite r v s).2.tcount ≤ s.cfg.busTimeout :=
  transaction_tcount_le _ (writeParts_local s.busAddr r v) s

/-- `fail` sets `tidx` to 0 (R125; log 10). -/
theorem transaction_tidx_of_failed {parts : List Tx} (h : (transaction parts s).1 = false) :
    (transaction parts s).2.tidx = 0 := by
  unfold transaction at h ⊢
  dsimp only at h ⊢
  split
  · next h1 =>
    rw [if_pos h1] at h
    split
    · next h2 => rw [if_pos h2] at h; cases h
    · rfl
  · rfl

theorem busWrite_tidx_of_failed {r : RegNum} {v : Byte} (h : (busWrite r v s).1 = false) : (busWrite r v s).2.tidx = 0 :=
  transaction_tidx_of_failed h

end Sys2Proof.Machine
end

section
/-! SUPPORT. The Register Transport's commands READ, WRITE and SETADDR (40_transport.md R120 to R125), each the answer to its
micro-operation. -/

namespace Sys2Proof.Machine

variable {s t : State} {r : RegNum} {n v : Byte}

/-! ## The end of a command -/

/-- The state that answers a command of which only the transport has run. -/
theorem TransportOnly.respond_eq (h : TransportOnly s t) (st : Status) (x : Byte) (d : List Byte) :
    t.respond st x d = { s with
      tphase := t.tphase
      tcount := t.tcount
      tidx := t.tidx
      rbuf := t.rbuf
      rlen := t.rlen
      ctx := .idle
      trace := t.trace
      busFeed := t.busFeed
      responses := s.responses ++ [⟨st, x, d⟩] } := by
  conv_lhs => rw [h.eq_update]
  rfl

theorem enterForeground_readAcked {k m : Nat} : s.enterForeground.ReadAcked k m ↔ s.ReadAcked k m :=
  readAcked_congr (s := s) (t := s.enterForeground) rfl rfl k m

theorem enterForeground_writeAcked {k : Nat} : s.enterForeground.WriteAcked k ↔ s.WriteAcked k :=
  writeAcked_congr (s := s) (t := s.enterForeground) rfl rfl k

theorem exec_read_of_some {bytes : List Byte} (hn : n ≠ 0)
    (h : (busRead r n.toNat s.enterForeground).1 = some bytes) :
    exec (.read r n) s = .next ((busRead r n.toNat s.enterForeground).2.respond .ok 0 bytes) := by
  simp only [exec, execRead, if_neg hn, h]

theorem exec_read_of_none (hn : n ≠ 0) (h : (busRead r n.toNat s.enterForeground).1 = none) :
    exec (.read r n) s = .next ((busRead r n.toNat s.enterForeground).2.respond .errBus 0 []) := by
  simp only [exec, execRead, if_neg hn, h]

theorem exec_read_failed (hn : n ≠ 0) (h : ¬ s.ReadAcked 0 n.toNat) :
    exec (.read r n) s = .next ((busRead r n.toNat s.enterForeground).2.respond .errBus 0 []) :=
  exec_read_of_none hn ((busRead_none r n.toNat _).2 (mt enterForeground_readAcked.1 h))

/-- Whatever the bus does, a READ of at least one byte is its micro-operation and one answer (R120). -/
theorem exec_read_answers (hn : n ≠ 0) :
    ∃ st d, exec (.read r n) s = .next ((busRead r n.toNat s.enterForeground).2.respond st 0 d) := by
  cases h : (busRead r n.toNat s.enterForeground).1 with
  | none => exact ⟨_, _, exec_read_of_none hn h⟩
  | some bytes => exact ⟨_, _, exec_read_of_some hn h⟩

theorem exec_write_eq (r : RegNum) (v : Byte) (s : State) :
    exec (.write r v) s = .next ((busWrite r v s.enterForeground).2.respond
      (if (busWrite r v s.enterForeground).1 then .ok else .errBus) 0 []) := rfl

theorem busWrite_eq_false_of_not_acked (h : ¬ s.WriteAcked 0) : (busWrite r v s).1 = false :=
  Bool.eq_false_iff.2 (mt (busWrite_succeeds r v s).1 h)

theorem exec_write_failed (h : ¬ s.WriteAcked 0) :
    exec (.write r v) s = .next ((busWrite r v s.enterForeground).2.respond .errBus 0 []) := by
  rw [exec_write_eq, busWrite_eq_false_of_not_acked (mt enterForeground_writeAcked.1 h)]
  rfl

/-! ## The statements -/

/-- Settles O13: the two cases of a wait point. -/
theorem waitPointTimesOutAtTheBound : Obligations.WaitPointTimesOutAtTheBound := fun _ =>
  ⟨fun h => waitPoint_completes h, fun h => waitPoint_timeout (Nat.not_lt.2 h)⟩

/-- Settles O14: the micro-operation's result is the answer. -/
theorem readDeliversTheBytes : Obligations.ReadDeliversTheBytes := by
  intro s r n hn h
  have hd := busRead_done r n.toNat s.enterForeground (Nat.le_of_lt_succ n.isLt) (enterForeground_readAcked.2 h)
  rw [BitVec.ofNat_toNat, BitVec.setWidth_eq] at hd
  rw [exec_read_of_some hn (congrArg Prod.fst hd), hd]
  rfl

/-- Settles O15: `fail` clears `rlen` and `tidx` and leaves the transport idle, and its frame is the transport's. -/
theorem readThatFailsAnswersErrBus : Obligations.ReadThatFailsAnswersErrBus := by
  refine ⟨fun s r n hn h => ⟨_, exec_read_failed hn h, ?_⟩, fun s r => rfl⟩
  obtain ⟨-, hrlen, htidx, htphase⟩ := busRead_failed (r := r) (mt enterForeground_readAcked.1 h)
  have he := (busRead_transportOnly r n.toNat s.enterForeground).respond_eq .errBus 0 []
  rw [hrlen, htidx, htphase] at he
  exact he

/-- Settles O16: the micro-operations are cut short at their first wait point that does not go well, and the answer adds nothing
to the bus. -/
theorem failedReadTraceIsCutShort : Obligations.FailedReadTraceIsCutShort := by
  refine ⟨fun s r n k hn hk hf => ?_, fun s r v k hk hf => ?_, not_readAcked_iff, not_writeAcked_iff⟩
  · have hc := busRead_cutShort (Nat.le_of_lt_succ n.isLt) hk hf.enterForeground r
    exact ⟨_, exec_read_failed hn ((not_readAcked_iff s _).2 ⟨k, hk, hf⟩), hc.congr rfl rfl rfl rfl rfl⟩
  · have hc := busWrite_cutShort hk hf.enterForeground r v
    exact ⟨_, exec_write_failed ((not_writeAcked_iff s).2 ⟨k, hk, hf⟩), hc.congr rfl rfl rfl rfl rfl⟩

/-- Settles O17: the answers used are bounded, and each wait point takes at most `BUS_TIMEOUT` polls. -/
theorem transactionsEndWithinTheirWaitPoints : Obligations.TransactionsEndWithinTheirWaitPoints := by
  constructor
  · intro s r n hn
    obtain ⟨st, d, he⟩ := exec_read_answers (s := s) (r := r) hn
    obtain ⟨m, hfeed, h1, hm⟩ := busRead_feed r (Nat.le_of_lt_succ n.isLt) s.enterForeground
    exact ⟨_, m, he, hfeed, h1, hm, polls_le s hm, busRead_tcount_le r n.toNat s.enterForeground⟩
  · intro s r v
    obtain ⟨m, hfeed, h1, hm⟩ := busWrite_feed r v s.enterForeground
    exact ⟨_, m, exec_write_eq r v s, hfeed, h1, hm, polls_le s hm, busWrite_tcount_le r v s.enterForeground⟩

/-- Settles O18: the micro-operation's result is the answer. -/
theorem writeSendsTheByte : Obligations.WriteSendsTheByte := by
  intro s r v h
  rw [exec_write_eq, busWrite_done r v s.enterForeground (enterForeground_writeAcked.2 h)]
  rfl

/-- Settles O19: `fail` clears `tidx` and leaves the transport idle, and a WRITE keeps the result of the last READ. -/
theorem writeThatFailsAnswersErrBus : Obligations.WriteThatFailsAnswersErrBus := by
  intro s r v h
  refine ⟨_, exec_write_failed h, ?_⟩
  have hfail := busWrite_eq_false_of_not_acked (r := r) (v := v) (mt enterForeground_writeAcked.1 h)
  obtain ⟨hrbuf, hrlen⟩ := busWrite_keepsResult r v s.enterForeground
  have he := (busWrite_transportOnly r v s.enterForeground).respond_eq .errBus 0 []
  rw [busWrite_tphase, busWrite_tidx_of_failed hfail, hrbuf, hrlen] at he
  exact he

/-- Settles O20: the two candidate addresses. -/
theorem setaddrWritesOnlyTheBusAddress : Obligations.SetaddrWritesOnlyTheBusAddress := fun _ => ⟨rfl, rfl⟩

end Sys2Proof.Machine
end

section
/-! SUPPORT. ENABLE (41_device_config.md R131, R133): its soft list goes on past failures, its hard list ends at the first. -/

namespace Sys2Proof.Machine

variable {s t : State} {l a b : WriteList}

/-! ## A hard list -/

theorem applyHard_cons (w : RegNum × Byte) (l : WriteList) (s : State) :
    applyHard (w :: l) s =
      if (busWrite w.1 w.2 s).1 then applyHard l (busWrite w.1 w.2 s).2 else (false, (busWrite w.1 w.2 s).2) := rfl

/-- The first list written, the second goes on from there (R133). -/
theorem applyHard_append_of_acked (h : s.ListAcked 0 a) : applyHard (a ++ b) s = applyHard b (applySoft a s) := by
  induction a generalizing s with
  | nil => rfl
  | cons w a ih =>
    obtain ⟨hw, ha⟩ := listAcked_cons h
    have hd := busWrite_done w.1 w.2 s hw
    have hs : applySoft (w :: a) s = applySoft a (busWrite w.1 w.2 s).2 := rfl
    rw [List.cons_append, applyHard_cons, if_pos ((busWrite_succeeds _ _ s).2 hw), hs]
    exact ih ((listAcked_of_feed (by rw [hd]) (by rw [hd]) 0 a).2 ha)

/-- A write that fails ends the list (R133). -/
theorem applyHard_cons_of_not_acked {w : RegNum × Byte} (h : ¬ s.WriteAcked 0) :
    applyHard (w :: l) s = (false, (busWrite w.1 w.2 s).2) := by
  rw [applyHard_cons, busWrite_eq_false_of_not_acked h]
  rfl

theorem listAcked_of_cons {w : RegNum × Byte} (hw : s.WriteAcked 0) (hl : s.ListAcked 5 l) : s.ListAcked 0 (w :: l) :=
  listAcked_append (a := [w]).2
    ⟨fun j hj => by rwa [show j = 0 by simpa using hj], hl⟩

theorem applyHard_succeeds (l : WriteList) (s : State) : (applyHard l s).1 = true ↔ s.ListAcked 0 l := by
  refine ⟨fun h => ?_, fun h => by rw [applyHard_done l s h]⟩
  induction l generalizing s with
  | nil => exact fun j hj => absurd hj (Nat.not_lt_zero j)
  | cons w l ih =>
    by_cases hw : s.WriteAcked 0
    · have hd := busWrite_done w.1 w.2 s hw
      rw [applyHard_cons, if_pos ((busWrite_succeeds _ _ s).2 hw)] at h
      exact listAcked_of_cons hw ((listAcked_of_feed (by rw [hd]) (by rw [hd]) 0 l).1 (ih _ h))
    · rw [applyHard_cons_of_not_acked hw] at h
      cases h

/-- A hard list that failed ended with a failed WRITE (R125, R133; log 10). -/
theorem applyHard_tidx_of_failed (h : (applyHard l s).1 = false) : (applyHard l s).2.tidx = 0 := by
  induction l generalizing s with
  | nil => cases h
  | cons w l ih =>
    rw [applyHard_cons] at h ⊢
    split at h
    · next hw => rw [if_pos hw]; exact ih h
    · next hw => rw [if_neg hw]; exact busWrite_tidx_of_failed (Bool.eq_false_iff.2 hw)

/-! ## ENABLE -/

/-- The state that a fatal termination leaves when only the transport has run, its last WRITE failed (60_exceptions.md R252). -/
theorem TransportOnly.raiseFatal_eq (h : TransportOnly s t) (hrbuf : t.rbuf = s.rbuf) (hrlen : t.rlen = s.rlen)
    (htidx : t.tidx = 0) (code : Nat) :
    t.raiseFatal code = { s with
      tphase := .idle
      tcount := t.tcount
      tidx := 0
      halted := true
      fatalComponent := s.cfg.componentId
      fatalCode := code
      ctx := .idle
      trace := t.trace
      busFeed := t.busFeed } := by
  conv_lhs => rw [h.eq_update, hrbuf, hrlen, htidx]
  rfl

/-- ENABLE's first actions: servicing is disarmed and a pending edge discarded (R131). -/
def State.enableStart (s : State) : State := { s.enterForeground with irqEn := false, irqPending := false }

theorem enableStart_listAcked {k : Nat} : s.enableStart.ListAcked k l ↔ s.ListAcked k l := by
  have h := listAcked_of_feed (s := s) (t := s.enableStart) (k := 0) rfl rfl k l
  rwa [Nat.zero_add] at h

/-- The state that ENABLE's soft list leaves. -/
def State.enableSoft (s : State) : State := applySoft s.cfg.activeSoft s.enableStart

theorem enableSoft_transportOnly (s : State) : TransportOnly s.enableStart s.enableSoft := applySoft_transportOnly _ _

theorem exec_enable_eq (s : State) :
    exec .enable s = .next (if (applyHard s.cfg.activeHard s.enableSoft).1
      then (applyHard s.cfg.activeHard s.enableSoft).2.respond .ok 0 []
      else (applyHard s.cfg.activeHard s.enableSoft).2.raiseFatal s.cfg.fatalConfig) := rfl

theorem exec_enable_acked (h : s.enableSoft.ListAcked 0 s.cfg.activeHard) :
    exec .enable s = .next ((applySoft s.cfg.activeHard s.enableSoft).respond .ok 0 []) := by
  rw [exec_enable_eq, applyHard_done _ _ h]
  rfl

theorem exec_enable_failed (h : (applyHard s.cfg.activeHard s.enableSoft).1 = false) :
    exec .enable s = .next ((applyHard s.cfg.activeHard s.enableSoft).2.raiseFatal s.cfg.fatalConfig) := by
  rw [exec_enable_eq, h]
  rfl

/-- The state in which ENABLE halts: a hard write failed, and the writes kept the result of the last READ. -/
theorem enable_raiseFatal_eq (h : (applyHard s.cfg.activeHard s.enableSoft).1 = false) (code : Nat) :
    (applyHard s.cfg.activeHard s.enableSoft).2.raiseFatal code = { s.enableStart with
      tphase := .idle
      tcount := (applyHard s.cfg.activeHard s.enableSoft).2.tcount
      tidx := 0
      halted := true
      fatalComponent := s.cfg.componentId
      fatalCode := code
      ctx := .idle
      trace := (applyHard s.cfg.activeHard s.enableSoft).2.trace
      busFeed := (applyHard s.cfg.activeHard s.enableSoft).2.busFeed } := by
  obtain ⟨hrbuf, hrlen⟩ := applyHard_keepsResult s.cfg.activeHard s.enableSoft
  obtain ⟨hrbuf', hrlen'⟩ := applySoft_keepsResult s.cfg.activeSoft s.enableStart
  exact ((enableSoft_transportOnly s).trans (applyHard_transportOnly _ _)).raiseFatal_eq (hrbuf.trans hrbuf')
    (hrlen.trans hrlen') (applyHard_tidx_of_failed h) code

/-- Settles O26: the hard list runs from the state the soft list leaves, and a soft list is written part by part. -/
theorem enableIgnoresSoftFailures : Obligations.EnableIgnoresSoftFailures := by
  intro s start u
  refine ⟨fun h => ⟨_, exec_enable_acked h, ?_⟩, fun h => ?_, ?_⟩
  · obtain ⟨htrace, hfeed⟩ := applySoft_done s.cfg.activeHard s.enableSoft h
    obtain ⟨hrbuf, hrlen⟩ := applySoft_keepsResult s.cfg.activeHard s.enableSoft
    obtain ⟨hrbuf', hrlen'⟩ := applySoft_keepsResult s.cfg.activeSoft s.enableStart
    have he := ((enableSoft_transportOnly s).trans (applySoft_transportOnly s.cfg.activeHard _)).respond_eq .ok 0 []
    rw [hrbuf.trans hrbuf', hrlen.trans hrlen', htrace, hfeed, (enableSoft_transportOnly s).busAddr] at he
    exact he
  · have hfail := Bool.eq_false_iff.2 (mt (applyHard_succeeds s.cfg.activeHard s.enableSoft).1 h)
    exact ⟨_, exec_enable_failed hfail, enable_raiseFatal_eq hfail _, (applyHard_follows s.cfg.activeHard s.enableSoft).trace⟩
  · intro before rest hsplit h
    have hu : u = applySoft rest (applySoft before start) := by rw [← applySoft_append, ← hsplit]
    rw [hu, (applySoft_done rest _ h).1, applySoft_busAddr]
    rfl

/-- ENABLE with the writes before hard write `j` acknowledged and that one failed: the failing WRITE ends the hard list. -/
theorem enable_applyHard_of_fails {j : Nat} (hj : j < s.cfg.activeHard.length)
    (hacked : s.ListAcked 0 (s.cfg.activeSoft ++ s.cfg.activeHard.take j))
    (hfail : ¬ s.WriteAcked (5 * (s.cfg.activeSoft.length + j))) :
    ∃ (w : RegNum × Byte) (u : State), applyHard s.cfg.activeHard s.enableSoft = (false, (busWrite w.1 w.2 u).2) ∧
      u.trace = s.trace ++ listTrace s.busAddr (s.cfg.activeSoft ++ s.cfg.activeHard.take j) ∧
      u.busFeed = feedSkip s.busFeed (5 * (s.cfg.activeSoft.length + j)) := by
  obtain ⟨hsoft, hhard⟩ := listAcked_append.1 hacked
  obtain ⟨-, hsoftFeed⟩ := applySoft_done s.cfg.activeSoft s.enableStart (enableStart_listAcked.2 hsoft)
  have hhard' : s.enableSoft.ListAcked 0 (s.cfg.activeHard.take j) :=
    (listAcked_of_feed hsoftFeed (enableSoft_transportOnly s).cfg 0 _).2 (enableStart_listAcked.2 (by rwa [Nat.zero_add] at hhard))
  obtain ⟨htrace, hfeed⟩ := applySoft_done _ s.enableStart (enableStart_listAcked.2 hacked)
  have hu := applySoft_append s.cfg.activeSoft (s.cfg.activeHard.take j) s.enableStart
  rw [hu] at htrace hfeed
  rw [List.length_append, List.length_take_of_le hj.le] at hfeed
  have hsplit : s.cfg.activeHard = s.cfg.activeHard.take j ++ s.cfg.activeHard[j] :: s.cfg.activeHard.drop (j + 1) := by simp
  refine ⟨s.cfg.activeHard[j], applySoft (s.cfg.activeHard.take j) s.enableSoft, ?_, htrace, hfeed⟩
  conv_lhs => rw [hsplit]
  rw [applyHard_append_of_acked hhard']
  refine applyHard_cons_of_not_acked fun hw => hfail ?_
  exact (writeAcked_of_feed (s := s) hfeed ((applySoft_cfg _ _).trans (enableSoft_transportOnly s).cfg) 0).1 hw

/-- Settles O25: the acknowledged writes are made, and the failing one is the last. -/
theorem enableHardWriteFailureIsFatal : Obligations.EnableHardWriteFailureIsFatal := by
  intro s j hj hacked hfail
  obtain ⟨w, u, hhard, htrace, hfeed⟩ := enable_applyHard_of_fails hj hacked hfail
  have hfalse := congrArg Prod.fst hhard
  refine ⟨_, exec_enable_failed hfalse, enable_raiseFatal_eq hfalse _, ?_, ?_⟩
  · have h := (busWrite_follows w.1 w.2 u).trace
    rw [htrace, ← congrArg Prod.snd hhard] at h
    exact h
  · obtain ⟨m, hm, -, hle⟩ := busWrite_feed w.1 w.2 u
    have hpos := congrArg Feed.pos hm
    rw [← congrArg Prod.snd hhard, hfeed, feedSkip_skip] at hpos
    exact hpos.trans_le (Nat.add_le_add_left (Nat.add_le_add_left hle _) _)

end Sys2Proof.Machine
end

section
/-! SUPPORT. INIT (41_device_config.md R130, R135): one probe or two, and the check of the identity byte that arrived. -/

namespace Sys2Proof.Machine

variable {s t : State} {a : BusAddr} {v : Byte}

/-! ## The frame of the probes -/

theorem probe_transportOnly (a : BusAddr) (s : State) : TransportOnly { s with busAddr := a } (probe a s).2 :=
  busRead_transportOnly _ _ _

theorem TransportOnly.withBusAddr (h : TransportOnly { s with busAddr := a } t) (b : BusAddr) :
    TransportOnly { s with busAddr := b } { t with busAddr := b } :=
  { h with busAddr := rfl }

/-- Two probes differ from the state before them by the second address and the transport. -/
theorem probe_probe_transportOnly (a b : BusAddr) (s : State) :
    TransportOnly { s with busAddr := b } (probe b (probe a s).2).2 :=
  ((probe_transportOnly a s).withBusAddr b).trans (probe_transportOnly b _)

/-- The state that a fatal termination leaves when only the transport has run (60_exceptions.md R252). -/
theorem TransportOnly.raiseFatal_eq_update (h : TransportOnly s t) (code : Nat) :
    t.raiseFatal code = { s with
      tphase := .idle
      tcount := t.tcount
      tidx := t.tidx
      rbuf := t.rbuf
      rlen := t.rlen
      halted := true
      fatalComponent := s.cfg.componentId
      fatalCode := code
      ctx := .idle
      trace := t.trace
      busFeed := t.busFeed } := by
  conv_lhs => rw [h.eq_update]
  rfl

/-! ## INIT by the outcome of its probes -/

/-- The state that INIT's probe of the primary address leaves. -/
def State.primaryProbed (s : State) : State := (probe s.cfg.addrPrimary s).2

theorem primaryProbed_cfg (s : State) : s.primaryProbed.cfg = s.cfg := probe_cfg _ _

/-- The one byte of an identity probe. -/
theorem answers_zero_one (s : State) : s.answers 0 1 = [(s.busAt 5).byte] := rfl

theorem checkIdentity_probe_of_eq (h : v = s.cfg.idValue) :
    checkIdentity v (probe a s).2 = (probe a s).2.respond .ok 0 [] :=
  if_pos (by rwa [probe_cfg])

theorem checkIdentity_probe_of_ne (h : v ≠ s.cfg.idValue) :
    checkIdentity v (probe a s).2 = (probe a s).2.raiseFatal s.cfg.fatalIdentity := by
  rw [checkIdentity, if_neg (by rwa [probe_cfg]), probe_cfg]

/-- The primary address answered: its byte decides, and the secondary address is not tried. -/
theorem initBody_of_primary (h : s.ReadAcked 0 1) :
    initBody s = checkIdentity (s.busAt 5).byte (probe s.cfg.addrPrimary s).2 := by
  unfold initBody; dsimp only
  rw [congrArg Prod.fst (probe_done h)]
  rfl

/-- Only the secondary address answered: its byte decides. -/
theorem initBody_of_secondary (h : ¬ s.ReadAcked 0 1) (hu : s.primaryProbed.ReadAcked 0 1) :
    initBody s = checkIdentity (s.primaryProbed.busAt 5).byte (probe s.cfg.addrSecondary s.primaryProbed).2 := by
  unfold State.primaryProbed at hu
  unfold initBody State.primaryProbed; dsimp only
  rw [(probe_failed h).1]; dsimp only
  rw [congrArg Prod.fst (probe_done hu)]
  rfl

/-- Neither address answered. -/
theorem initBody_of_neither (h : ¬ s.ReadAcked 0 1) (hu : ¬ s.primaryProbed.ReadAcked 0 1) :
    initBody s = (probe s.cfg.addrSecondary s.primaryProbed).2.raiseFatal s.cfg.fatalDiscovery := by
  unfold State.primaryProbed at hu
  unfold initBody State.primaryProbed; dsimp only
  rw [(probe_failed h).1]; dsimp only
  rw [(probe_failed hu).1]

theorem exec_init_eq (h : s.cfg.selfTest = false) : exec .init s = .next (initBody s.enterForeground) :=
  if_neg (Bool.eq_false_iff.1 h)

/-! ## The statements -/

/-- Settles O21: the probe that was answered leaves the whole state, and the identity it read is the right one. -/
theorem initFindsTheTarget : Obligations.InitFindsTheTarget := by
  constructor
  · intro s hself h hid
    have hbyte : (s.enterForeground.busAt 5).byte = s.enterForeground.cfg.idValue := hid
    have hp := probe_done (a := s.cfg.addrPrimary) (enterForeground_readAcked.2 h)
    rw [answers_zero_one, hbyte] at hp
    rw [exec_init_eq hself, initBody_of_primary (enterForeground_readAcked.2 h), checkIdentity_probe_of_eq hbyte]
    exact congrArg (fun r : _ × State => Host.Outcome.next (r.2.respond .ok 0 [])) hp
  · intro s u hself h hu hid
    have hcfg : u.cfg = s.cfg := primaryProbed_cfg s.enterForeground
    have hp := congrArg Prod.snd (probe_done (a := s.cfg.addrSecondary) hu)
    rw [answers_zero_one, hid, hcfg] at hp
    have he := (probe_probe_transportOnly s.cfg.addrPrimary s.cfg.addrSecondary s.enterForeground).respond_eq .ok 0 []
    refine ⟨(probe s.cfg.addrSecondary u).2.respond .ok 0 [], ?_, ?_, ?_⟩
    · rw [exec_init_eq hself, initBody_of_secondary (mt enterForeground_readAcked.1 h) hu]
      exact congrArg _ (checkIdentity_probe_of_eq (by rw [primaryProbed_cfg]; exact hid))
    · refine he.trans ?_
      rw [congrArg State.tphase hp, congrArg State.tidx hp, congrArg State.rlen hp, congrArg State.trace hp]
      rfl
    · rw [State.respond_rbuf, hp]
      simp [overlay]

/-- Settles O22: each end is a fatal termination after the last probe, of which only `bus_addr` and the transport show. -/
theorem initFatalCauses : Obligations.InitFatalCauses := by
  intro s hself u addr code hcause
  have hboth := probe_probe_transportOnly s.cfg.addrPrimary s.cfg.addrSecondary s.enterForeground
  obtain ⟨x, hx, hframe, hfeed⟩ : ∃ x, initBody s.enterForeground = x.raiseFatal code ∧
      TransportOnly { s.enterForeground with busAddr := addr } x ∧
      (s.ReadAcked 0 1 → x.busFeed = feedSkip s.busFeed 7) := by
    obtain ⟨rfl, rfl, h, hid⟩ | ⟨rfl, rfl, h, hu, hid⟩ | ⟨rfl, rfl, h, hu⟩ := hcause
    · refine ⟨u, ?_, probe_transportOnly _ _, fun _ => ?_⟩
      · rw [initBody_of_primary (enterForeground_readAcked.2 h)]
        exact checkIdentity_probe_of_ne hid
      · exact congrArg (fun r => r.2.busFeed) (probe_done (enterForeground_readAcked.2 h))
    · refine ⟨_, ?_, hboth, fun h' => absurd h' h⟩
      rw [initBody_of_secondary (mt enterForeground_readAcked.1 h) hu,
        checkIdentity_probe_of_ne (by rw [primaryProbed_cfg]; exact hid), primaryProbed_cfg]
      rfl
    · exact ⟨_, initBody_of_neither (mt enterForeground_readAcked.1 h) hu, hboth, fun h' => absurd h' h⟩
  exact ⟨_, (exec_init_eq hself).trans (congrArg _ hx), hframe.raiseFatal_eq_update code, hfeed⟩

/-- Settles O23: the refusal stands before the first probe. -/
theorem initWithSelfTestIsRefused : Obligations.InitWithSelfTestIsRefused := fun _ h => if_pos h

end Sys2Proof.Machine
end

section
/-! SUPPORT. The lists of ENABLE and SLEEP (41_device_config.md R131 to R133): a list written part by part
is the whole list. -/

namespace Sys2Proof.Machine

variable {s t : State} {l a b : WriteList}

/-! ## ENABLE with every write acknowledged -/

/-- The first part acknowledged, the second is acknowledged from where the first has left the bus. -/
theorem applySoft_listAcked_of_append (h : s.ListAcked 0 (a ++ b)) : (applySoft a s).ListAcked 0 b := by
  obtain ⟨ha, hb⟩ := listAcked_append.1 h
  rw [Nat.zero_add] at hb
  exact (listAcked_of_feed (applySoft_done a s ha).2 (applySoft_cfg a s) 0 b).2 hb

/-- A WRITE that is acknowledged throughout does not write `tidx` (R121). -/
theorem applySoft_tidx_of_acked (h : s.ListAcked 0 l) : (applySoft l s).tidx = s.tidx := by
  induction l generalizing s with
  | nil => rfl
  | cons w l ih =>
    have hw : (busWrite w.1 w.2 s).2.tidx = s.tidx := by rw [busWrite_done w.1 w.2 s (listAcked_cons h).1]
    exact (ih (applySoft_listAcked_of_append (a := [w]) h)).trans hw

/-- Settles O24: the two lists are written as one. -/
theorem enableAppliesTheActiveProfile : Obligations.EnableAppliesTheActiveProfile := by
  intro s h
  have hall := enableStart_listAcked.2 h
  obtain ⟨htrace, hfeed⟩ := applySoft_done _ s.enableStart hall
  obtain ⟨hrbuf, hrlen⟩ := applySoft_keepsResult (s.cfg.activeSoft ++ s.cfg.activeHard) s.enableStart
  have he := (applySoft_transportOnly (s.cfg.activeSoft ++ s.cfg.activeHard) s.enableStart).respond_eq .ok 0 []
  rw [applySoft_tidx_of_acked hall, hrbuf, hrlen, htrace, hfeed, List.length_append] at he
  refine ⟨_, exec_enable_acked (applySoft_listAcked_of_append hall), ?_⟩
  rw [State.enableSoft, ← applySoft_append]
  exact he

/-! ## SLEEP -/

/-- All that SLEEP writes: `CFG_WAIT_DOWN` follows its list when wake gestures are on (R132). -/
def sleepWrites (p : Params) : WriteList := p.sleepList ++ if p.wakeGestures then p.cfgWaitDown else []

/-- SLEEP's first actions: the counters and `depth` are cleared (R132). -/
def State.sleepBegin (s : State) : State := { s.enterForeground with fastCount := 0, slowCount := 0, depth := 0 }

/-- SLEEP's last actions: the wake machine is moved and servicing armed (R132). -/
def State.sleepEnd (p : Params) (s : State) : State :=
  { s with wakeState := if p.wakeGestures then .waitForDown else .sleepStart, irqEn := true }

theorem listAcked_congr (h : t.busFeed = s.busFeed) (hc : t.cfg = s.cfg) (k : Nat) (l : WriteList) :
    t.ListAcked k l ↔ s.ListAcked k l :=
  forall₂_congr fun _ _ => writeAcked_congr h hc _

theorem armWake_eq (s : State) : { armWake s with irqEn := true } =
    (applySoft (if s.cfg.wakeGestures then s.cfg.cfgWaitDown else []) s).sleepEnd s.cfg := by
  unfold armWake State.sleepEnd
  split <;> rfl

theorem exec_sleep_eq (s : State) :
    exec .sleep s = .next (((applySoft (sleepWrites s.cfg) s.sleepBegin).sleepEnd s.cfg).respond .ok 0 []) := by
  have h := armWake_eq (applySoft s.cfg.sleepList s.sleepBegin)
  rw [applySoft_cfg, ← applySoft_append] at h
  exact congrArg (fun t : State => Host.Outcome.next (t.respond .ok 0 [])) h

/-- Settles O27: SLEEP is one soft list between its first actions and its last. -/
theorem sleepArmsTheWakeMachine : Obligations.SleepArmsTheWakeMachine := by
  intro s l start
  have hparts : ∀ before rest : WriteList, l = before ++ rest → (applySoft before start).ListAcked 0 rest →
      (applySoft l start).trace = (applySoft before start).trace ++ listTrace s.busAddr rest := by
    intro before rest hl h
    rw [hl, applySoft_append, (applySoft_done rest _ h).1, applySoft_busAddr]
    rfl
  have hacked : start.ListAcked 0 l ↔ s.ListAcked 0 l := listAcked_congr (s := s) (t := start) rfl rfl 0 l
  refine ⟨_, exec_sleep_eq s, ?_, fun h => hparts [] l rfl (hacked.2 h), hparts⟩
  obtain ⟨hrbuf, hrlen⟩ := applySoft_keepsResult l start
  have he := (applySoft_transportOnly l start).eq_update
  rw [hrbuf, hrlen] at he
  exact congrArg (fun t : State => (t.sleepEnd s.cfg).respond .ok 0 []) he

end Sys2Proof.Machine
end

section
/-! SUPPORT. FIFO Capture and the instant read (42_capture_classifier.md R150, R151): what each of the two reads of a CAPTURE
leaves, and READ_INSTANT as one read and one answer. -/

namespace Sys2Proof.Machine

variable {s t : State} {n : Nat}

/-! ## The reads of a CAPTURE -/

/-- After the read of the FIFO source register (R150). -/
def State.fifoRead (s : State) : State := (busRead s.cfg.regFifoSrc 1 s).2

/-- After the read of `n` sample blocks (R150). -/
def State.blocksRead (n : Nat) (s : State) : State := (busRead s.cfg.regOut (6 * n) s).2

theorem fifoRead_transportOnly (s : State) : TransportOnly s s.fifoRead := busRead_transportOnly _ _ s

theorem blocksRead_transportOnly (n : Nat) (s : State) : TransportOnly s (s.blocksRead n) := busRead_transportOnly _ _ s

theorem fifoRead_busFeed (h : s.ReadAcked 0 1) : s.fifoRead.busFeed = feedSkip s.busFeed 7 :=
  congrArg (fun r => r.2.busFeed) (busRead_done s.cfg.regFifoSrc 1 s (by decide) h)

theorem fifoRead_trace (h : s.ReadAcked 0 1) :
    s.fifoRead.trace = s.trace ++ readTrace s.cfg s.busAddr s.cfg.regFifoSrc (s.answers 0 1) :=
  congrArg (fun r => r.2.trace) (busRead_done s.cfg.regFifoSrc 1 s (by decide) h)

/-- The second read of a CAPTURE starts where an acknowledged first one has left the bus. -/
theorem fifoRead_readAcked (h : s.ReadAcked 0 1) : s.fifoRead.ReadAcked 0 n ↔ s.ReadAcked 7 n :=
  readAcked_of_feed (fifoRead_busFeed h) (fifoRead_transportOnly s).cfg 0 n

theorem capture_of_acked (h : s.ReadAcked 0 1) : capture s = captureBlocks (fifoDepth (s.busAt 5).byte) s.fifoRead := by
  have hd : (busRead s.cfg.regFifoSrc 1 s).1 = some (s.answers 0 1) :=
    congrArg Prod.fst (busRead_done _ 1 s (by decide) h)
  unfold capture; dsimp only
  rw [hd, answers_zero_one]
  rfl

theorem capture_of_not_acked (h : ¬ s.ReadAcked 0 1) : capture s = { s.fifoRead with depth := 0 } := by
  unfold capture; dsimp only
  rw [(busRead_none _ 1 s).2 h]
  rfl

theorem captureBlocks_of_acked (hn : 6 * n ≤ 255) (h : s.ReadAcked 0 (6 * n)) :
    captureBlocks n s = { s.blocksRead n with
      buf := storeSamples s.cfg.sampleBits (s.answers 0 (6 * n)) n s.buf
      depth := BitVec.ofNat 6 n } := by
  have hd : (busRead s.cfg.regOut (bytesPerSample * n) s).1 = some (s.answers 0 (6 * n)) :=
    congrArg Prod.fst (busRead_done _ (6 * n) s hn h)
  unfold captureBlocks; dsimp only
  rw [hd, busRead_buf]
  rfl

theorem captureBlocks_of_not_acked (h : ¬ s.ReadAcked 0 (6 * n)) :
    captureBlocks n s = { s.blocksRead n with depth := 0 } := by
  unfold captureBlocks; dsimp only
  rw [(busRead_none _ (bytesPerSample * n) s).2 h]
  rfl

theorem blocksRead_of_acked (hn : 6 * n ≤ 255) (h : s.ReadAcked 0 (6 * n)) :
    (s.blocksRead n).tphase = .idle ∧ (s.blocksRead n).rlen = BitVec.ofNat 8 (6 * n) ∧
      (s.blocksRead n).trace = s.trace ++ readTrace s.cfg s.busAddr s.cfg.regOut (s.answers 0 (6 * n)) ∧
      (s.blocksRead n).busFeed = feedSkip s.busFeed (6 * n + 6) := by
  rw [State.blocksRead, busRead_done s.cfg.regOut (6 * n) s hn h]
  exact ⟨rfl, rfl, rfl, rfl⟩

/-! ## The samples of a CAPTURE -/

theorem storeSamples_of_lt (sampleBits : Nat) (bytes : List Byte) (old : Vector Sample 32) {i : Fin 32} (h : i.val < n) :
    (storeSamples sampleBits bytes n old)[i] = sampleAt sampleBits bytes i.val := by
  simp only [storeSamples, Fin.getElem_fin, Vector.getElem_ofFn, if_pos h]

theorem storeSamples_of_le (sampleBits : Nat) (bytes : List Byte) (old : Vector Sample 32) {i : Fin 32} (h : n ≤ i.val) :
    (storeSamples sampleBits bytes n old)[i] = old[i] := by
  simp only [storeSamples, Fin.getElem_fin, Vector.getElem_ofFn, if_neg (Nat.not_lt.2 h)]

/-- A state in which only the transport has run, with the Capture Buffer written. -/
theorem TransportOnly.withCapture_eq (h : TransportOnly s t) (b : Vector Sample 32) (d : BitVec 6) :
    { t with buf := b, depth := d } = { s with
      depth := d
      buf := b
      tphase := t.tphase
      tcount := t.tcount
      tidx := t.tidx
      rbuf := t.rbuf
      rlen := t.rlen
      trace := t.trace
      busFeed := t.busFeed } := by
  conv_lhs => rw [h.eq_update]

/-- Settles O29: the second read starts where the first has left the bus, and its bytes are the samples. -/
theorem captureFillsTheBuffer : Obligations.CaptureFillsTheBuffer := by
  intro s n h1 h2
  have hn : n ≤ 32 := fifoDepth_le _
  have h6 : 6 * n ≤ 255 := (Nat.mul_le_mul_left 6 hn).trans (by decide)
  have hacked : s.fifoRead.ReadAcked 0 (6 * n) := (fifoRead_readAcked h1).2 h2
  have hanswers : s.fifoRead.answers 0 (6 * n) = s.answers 7 (6 * n) := answers_of_feed (fifoRead_busFeed h1) 0 (6 * n)
  have hfirst := fifoRead_transportOnly s
  have hframe := hfirst.trans (blocksRead_transportOnly n s.fifoRead)
  obtain ⟨hphase, hlen, htrace, hfeed⟩ := blocksRead_of_acked h6 hacked
  have hcapture := ((capture_of_acked h1).trans (captureBlocks_of_acked h6 hacked)).trans (hframe.withCapture_eq _ _)
  rw [hphase, hlen, htrace, hfeed, hanswers, hfirst.cfg, hfirst.busAddr, hfirst.buf, fifoRead_trace h1, fifoRead_busFeed h1,
    feedSkip_skip] at hcapture
  refine ⟨_, hcapture.symm, Nat.le_add_left 1 _, hn, rfl, ?_, fun i hi => storeSamples_of_lt _ _ _ hi,
    fun i hi => storeSamples_of_le _ _ _ hi⟩
  exact BitVec.toNat_ofNat .. ▸ Nat.mod_eq_of_lt (hn.trans_lt (by decide))

/-- A state in which only the transport has run, with the Capture Buffer emptied. -/
theorem TransportOnly.clearDepth_eq (h : TransportOnly s t) (hp : t.tphase = .idle) (hl : t.rlen = 0) :
    { t with depth := 0 } = { s with
      depth := 0
      tphase := .idle
      tcount := t.tcount
      tidx := t.tidx
      rbuf := t.rbuf
      rlen := 0
      trace := t.trace
      busFeed := t.busFeed } := by
  conv_lhs => rw [h.eq_update, hp, hl]

/-- Settles O30: whichever read fails, only the transport has run before `depth` is cleared. -/
theorem captureFailureEmptiesTheBuffer : Obligations.CaptureFailureEmptiesTheBuffer := by
  intro s h
  by_cases h1 : s.ReadAcked 0 1
  · have h2 : ¬ s.fifoRead.ReadAcked 0 (6 * fifoDepth (s.busAt 5).byte) :=
      fun h2 => h ⟨h1, (fifoRead_readAcked h1).1 h2⟩
    obtain ⟨-, hlen, -, hphase⟩ := busRead_failed (r := s.fifoRead.cfg.regOut) h2
    have hframe := (fifoRead_transportOnly s).trans (blocksRead_transportOnly (fifoDepth (s.busAt 5).byte) s.fifoRead)
    exact ⟨_, ((capture_of_acked h1).trans (captureBlocks_of_not_acked h2)).symm, hframe.clearDepth_eq hphase hlen⟩
  · obtain ⟨-, hlen, -, hphase⟩ := busRead_failed (r := s.cfg.regFifoSrc) h1
    exact ⟨_, (capture_of_not_acked h1).symm, (fifoRead_transportOnly s).clearDepth_eq hphase hlen⟩

/-! ## READ_INSTANT -/

theorem exec_readInstant_of_some {v : Sample} (h : (instant s.enterForeground).1 = some v) :
    exec .readInstant s = .next ((instant s.enterForeground).2.respond .ok 1 (sampleBytes v)) := by
  simp only [exec, execReadInstant, h]

theorem exec_readInstant_of_none (h : (instant s.enterForeground).1 = none) :
    exec .readInstant s = .next ((instant s.enterForeground).2.respond .errBus 0 []) := by
  simp only [exec, execReadInstant, h]

theorem instant_acked (h : s.ReadAcked 0 6) : (instant s).2.rlen = 6 ∧
    (instant s).2.trace = s.trace ++ readTrace s.cfg s.busAddr s.cfg.regOut (s.answers 0 6) := by
  have hd := busRead_done s.cfg.regOut 6 s (by decide) h
  exact ⟨congrArg (fun r => r.2.rlen) hd, congrArg (fun r => r.2.trace) hd⟩

theorem instant_rlen_of_not_acked (h : ¬ s.ReadAcked 0 6) : (instant s).2.rlen = 0 :=
  (busRead_failed (r := s.cfg.regOut) h).2.1

/-- READ_INSTANT's answer after its reading: only the transport has run since it began. -/
theorem instant_respond_eq (s : State) (st : Status) (x : Byte) (d : List Byte) :
    let t := (instant s.enterForeground).2.respond st x d
    t = { s with
      tphase := .idle
      tcount := t.tcount
      tidx := t.tidx
      rbuf := t.rbuf
      rlen := t.rlen
      ctx := .idle
      trace := t.trace
      busFeed := t.busFeed
      responses := t.responses } := by
  have hframe := instant_transportOnly s.enterForeground
  have h := hframe.respond_eq st x d
  rw [instant_tphase, ← hframe.responses] at h
  exact h

/-- Settles O31: one read, and its answer with the bytes of the sample or without a value. -/
theorem readInstantAnswersTheThreeAxes : Obligations.ReadInstantAnswersTheThreeAxes := by
  intro s v
  have hresponses : (instant s.enterForeground).2.responses = s.responses := (instant_transportOnly _).responses
  by_cases h : s.ReadAcked 0 6
  · have hf := enterForeground_readAcked.2 h
    obtain ⟨hlen, htrace⟩ := instant_acked hf
    have hans : ((instant s.enterForeground).2.respond .ok 1 (sampleBytes v)).responses =
        s.responses ++ [⟨.ok, 1, sampleBytes v⟩] := congrArg (· ++ _) hresponses
    exact ⟨_, exec_readInstant_of_some (instant_some hf), instant_respond_eq s _ _ _,
      fun _ => ⟨hlen, htrace, _, hans, rfl⟩, fun hn => absurd h hn⟩
  · have hf := mt enterForeground_readAcked.1 h
    exact ⟨_, exec_readInstant_of_none (instant_none hf), instant_respond_eq s _ _ _,
      fun h' => absurd h' h, fun _ => ⟨instant_rlen_of_not_acked hf, congrArg (· ++ _) hresponses⟩⟩

end Sys2Proof.Machine
end

section
/-! SUPPORT. The Gesture Classifier (42_capture_classifier.md R152 to R165): what the extended samples are, the cumulative sums
as finite sums, and the cascade of R153 taken stage by stage. -/

namespace Sys2Proof.Machine

variable {s : State} {f : Nat → Int} {n : Nat}

/-! ## Extended samples (R152) -/

/-- An entry of a vector read from its list. -/
theorem toList_getD_eq_getElem {α : Type} {m : Nat} (v : Vector α m) (i : Fin m) (d : α) : v.toList.getD i d = v[i] := by
  simp [List.getD_eq_getElem?_getD]

theorem extSample_of_lt {i : Fin 32} (h : i.val < s.depth.toNat) : extSample s i = s.buf[i] := by
  rw [extSample, if_pos h, toList_getD_eq_getElem]

theorem extSample_of_le {i : Nat} (h : s.depth.toNat ≤ i) : extSample s i = ⟨0, 0, 0⟩ := if_neg (Nat.not_lt.2 h)

/-- Outside the buffer an extended sample is zero, whatever `depth` says. -/
theorem extSample_of_32_le {i : Nat} (h : 32 ≤ i) : extSample s i = ⟨0, 0, 0⟩ := by
  have hlen : s.buf.toList.length ≤ i := Vector.length_toList.trans_le h
  rw [extSample, List.getD_eq_default _ _ hlen, ite_self]

theorem depth_toNat_pos (h : s.depth ≠ 0) : 0 < s.depth.toNat := Nat.pos_of_ne_zero (BitVec.toNat_ne.1 h)

/-- The most recent sample of a capture that is not empty (R152). -/
theorem lastSample_eq (h : s.depth ≠ 0) : lastSample s = s.buf.toList.getD (s.depth.toNat - 1) ⟨0, 0, 0⟩ :=
  if_pos (Nat.sub_lt (depth_toNat_pos h) Nat.one_pos)

/-! ## Cumulative sums (R152) -/

theorem cumSum_eq_sum (f : Nat → Int) (i : Nat) : cumSum f i = ∑ k ∈ Finset.range (i + 1), f k := by
  induction i with
  | zero => simp [cumSum]
  | succ i ih => rw [cumSum, ih, Finset.sum_range_succ _ (i + 1)]

/-- Nothing is added after the last of `n` terms. -/
theorem cumSum_of_zero_beyond (hn : 0 < n) (hf : ∀ k ≥ n, f k = 0) {i : Nat} (hi : n - 1 ≤ i) :
    cumSum f i = cumSum f (n - 1) := by
  rw [cumSum_eq_sum, cumSum_eq_sum, Nat.sub_add_cancel hn]
  exact Finset.eventually_constant_sum hf (by omega)

theorem abs_cumSum_le {b : Int} (hf : ∀ k, |f k| ≤ b) (i : Nat) : |cumSum f i| ≤ (i + 1) * b := by
  rw [cumSum_eq_sum]
  calc |∑ k ∈ Finset.range (i + 1), f k| ≤ ∑ k ∈ Finset.range (i + 1), |f k| := Finset.abs_sum_le_sum_abs _ _
    _ ≤ (Finset.range (i + 1)).card • b := Finset.sum_le_card_nsmul _ _ _ fun k _ => hf k
    _ = (i + 1) * b := by simp

/-- Settles O34: the samples that the zero extension adds are zero on every axis. -/
theorem cumulativeSumsStopAtTheLastSample : Obligations.CumulativeSumsStopAtTheLastSample := by
  intro s i hd hi
  have hpos := depth_toNat_pos hd
  exact ⟨cumSum_of_zero_beyond hpos (fun _ hk => congrArg Sample.x (extSample_of_le hk)) hi,
    cumSum_of_zero_beyond hpos (fun _ hk => congrArg Sample.y (extSample_of_le hk)) hi,
    cumSum_of_zero_beyond hpos (fun _ hk => congrArg Sample.z (extSample_of_le hk)) hi⟩

/-! ## The score (R155) -/

theorem weighted_of_lt {i : Fin 32} (h : i.val < s.depth.toNat) :
    weighted s i = s.cfg.wX[i] * (s.buf[i]).x + s.cfg.wY[i] * (s.buf[i]).y + s.cfg.wZ[i] * (s.buf[i]).z := by
  simp only [weighted, toList_getD_eq_getElem, extSample_of_lt h]

theorem weighted_of_le {i : Nat} (h : s.depth.toNat ≤ i) : weighted s i = 0 := by
  simp [weighted, extSample_of_le h]

/-- Settles O35: the score is a sum over the 32 indices, to which those beyond the capture add nothing. -/
theorem scoreIsTheDotProductOfTheCapture : Obligations.ScoreIsTheDotProductOfTheCapture := by
  intro s _
  calc score s = ∑ k ∈ Finset.range 32, weighted s k := cumSum_eq_sum _ _
    _ = ∑ i : Fin 32, weighted s i := Finset.sum_range _
    _ = _ := Finset.sum_congr rfl fun i _ => ?_
  split
  · next h => exact weighted_of_lt h
  · next h => exact weighted_of_le (Nat.not_lt.1 h)

/-! ## Widths (R165) -/

theorem zero_axisInRange (sampleBits : Nat) : axisInRange sampleBits 0 :=
  ⟨neg_nonpos.2 (by positivity), by positivity⟩

theorem extSample_inRange {sampleBits : Nat} (h : ∀ i : Fin 32, (s.buf[i]).inRange sampleBits) (k : Nat) :
    (extSample s k).inRange sampleBits := by
  have hzero : (⟨0, 0, 0⟩ : Sample).inRange sampleBits :=
    ⟨zero_axisInRange _, zero_axisInRange _, zero_axisInRange _⟩
  by_cases hk : k < 32
  · by_cases hd : k < s.depth.toNat
    · exact extSample_of_lt (i := ⟨k, hk⟩) hd ▸ h ⟨k, hk⟩
    · exact extSample_of_le (Nat.not_lt.1 hd) ▸ hzero
  · exact extSample_of_32_le (Nat.not_lt.1 hk) ▸ hzero

/-- An axis value of at most 16 bits. -/
theorem abs_le_of_axisInRange {sampleBits : Nat} {a : Int} (hb : sampleBits ≤ 16) (h : axisInRange sampleBits a) :
    |a| ≤ 2 ^ 15 := by
  have hpow : (2 : Int) ^ (sampleBits - 1) ≤ 2 ^ 15 := pow_le_pow_right₀ (by decide) (by omega)
  exact (abs_le.2 ⟨h.1, h.2.le⟩).trans hpow

/-- At most 32 terms of at most 16 bits. -/
theorem abs_cumSum_le_two_pow (hf : ∀ k, |f k| ≤ 2 ^ 15) {i : Nat} (hi : i < 32) : |cumSum f i| ≤ 2 ^ 20 := by
  have h := abs_cumSum_le hf i
  omega

/-- Settles O37: 32 samples of at most `2 ^ 15` each, and the sums of R158 and R160 term by term. -/
theorem classifierSumsFitTheirWidths : Obligations.ClassifierSumsFitTheirWidths := by
  intro s _ hb hbuf
  have hs := extSample_inRange hbuf
  have hx : ∀ i < 32, |sumX s i| ≤ 2 ^ 20 := fun i => abs_cumSum_le_two_pow fun k => abs_le_of_axisInRange hb (hs k).1
  have hy : ∀ i < 32, |sumY s i| ≤ 2 ^ 20 := fun i => abs_cumSum_le_two_pow fun k => abs_le_of_axisInRange hb (hs k).2.1
  have hz : ∀ i < 32, |sumZ s i| ≤ 2 ^ 20 := fun i => abs_cumSum_le_two_pow fun k => abs_le_of_axisInRange hb (hs k).2.2
  refine ⟨fun i hi => ⟨hx i hi, hy i hi, hz i hi⟩, ?_, ?_⟩
  · calc |sumZ s 31 - sumZ s 20 - sumZ s 11| ≤ |sumZ s 31 - sumZ s 20| + |sumZ s 11| := abs_sub _ _
      _ ≤ |sumZ s 31| + |sumZ s 20| + |sumZ s 11| := by gcongr; exact abs_sub _ _
      _ ≤ 2 ^ 20 + 2 ^ 20 + 2 ^ 20 := by gcongr <;> exact hz _ (by decide)
      _ = 3 * 2 ^ 20 := by norm_num
  · calc |sumY s 9| + |sumX s 5| ≤ 2 ^ 20 + 2 ^ 20 := add_le_add (hy 9 (by decide)) (hx 5 (by decide))
      _ = 2 ^ 21 := by norm_num

/-! ## The cascade (R153) -/

/-- Settles O32: the empty capture is asked for first. -/
theorem emptyCaptureIsAccepted : Obligations.EmptyCaptureIsAccepted := fun _ h => if_pos h

/-- Two states whose captured samples agree hold the same below `depth`, which is all that is left of `buf` once scrubbed. -/
theorem alike_withBuf {b : Vector Sample 32} (h : ∀ i : Fin 32, i.val < s.depth.toNat → s.buf[i] = b[i]) :
    Alike s { s with buf := b } := by
  unfold Alike
  rw [State.scrub_eq, State.scrub_eq, keepBelow_congr fun i hi hd => h ⟨i, hi⟩ hd]

/-- Settles O33: entries beyond `depth` reach no verdict, and nothing else but the parameters and `depth` is read. -/
theorem classifierReadsOnlyTheCapturedSamples : Obligations.ClassifierReadsOnlyTheCapturedSamples := fun _ _ hcfg hdepth hbuf =>
  (alike_withBuf hbuf).classify.trans (classify_congr hcfg hdepth rfl)

/-- Settles O36: each condition that is not met opens the next stage of the cascade. -/
theorem deliberatenessGuardStandsBetweenStages : Obligations.DeliberatenessGuardStandsBetweenStages := by
  intro s hd y
  have hy : (lastSample s).y = y := congrArg Sample.y (lastSample_eq hd)
  unfold classify
  rw [if_neg hd]
  refine ⟨fun hscore => if_pos hscore, fun hscore hflag => ?_, fun hscore hflag => ?_⟩ <;> rw [if_neg (not_le.2 hscore)]
  · exact if_pos hflag
  rw [if_neg (Bool.eq_false_iff.1 hflag)]
  refine ⟨fun h2 => if_pos h2, fun h2 h3 => ?_, fun h2 h3 => ?_⟩ <;> rw [if_neg (show ¬ stageY9 s from not_le.2 h2)]
  · exact if_pos (hy.trans_lt h3)
  rw [if_neg (show ¬ stageLastBelow s from not_lt.2 (h3.trans_eq hy.symm))]
  refine ⟨fun h4 => if_pos h4, fun h4 => ?_⟩
  rw [if_neg (show ¬ stageSlope s from not_le.2 h4)]
  refine ⟨fun h5 => if_pos h5, fun h5 => ?_⟩
  rw [if_neg (show ¬ stageX5 s from not_le.2 h5)]
  refine ⟨fun h6 => if_pos h6, fun h6 => ?_⟩
  rw [if_neg (show ¬ stageXY s from not_lt.2 h6)]
  refine ⟨fun h7 => if_pos (h7.trans_eq hy.symm), fun h7 => ?_⟩
  rw [if_neg (show ¬ stageLastAbove s from not_le.2 (hy.trans_lt h7))]
  exact ⟨fun h8 => if_pos h8, fun hA hB => if_neg (not_or.2 ⟨not_lt.2 hA, not_lt.2 hB⟩)⟩

end Sys2Proof.Machine
end

section
/-! SUPPORT. The steps that are no command (00_scope.md R10): a `Line` step, an idle turn, a held word, a SERVICE and its frame
(43_wake_sequencer.md R180, R181, 60_exceptions.md R252, R257, R267). -/

namespace Sys2Proof.Machine

variable {s t : State} {w : CmdWord} {level : Bool}

/-! ## The steps -/

theorem step_of_nextEvent_line (h : s.nextEvent = .line level) : step s = .next (lineStep level s.takeEvent) := by
  simp only [step, h]

theorem step_of_nextEvent_quiet (h : s.nextEvent = .quiet) : step s = idleTurn s := by
  simp only [step, h]

theorem cmdReady_of_halted (h : s.halted = true) : s.cmdReady = false := by simp [State.cmdReady, h]

theorem cmdReady_of_irqPending (h : s.irqPending = true) : s.cmdReady = false := by simp [State.cmdReady, h]

theorem serviceDue_of_halted (h : s.halted = true) : s.serviceDue = false := by simp [State.serviceDue, h]

theorem serviceDue_of_irqPending (hp : s.irqPending = true) (hh : s.halted = false) : s.serviceDue = true := by
  simp [State.serviceDue, hp, hh]

theorem serviceDue_of_not_irqPending (hp : s.irqPending = false) : s.serviceDue = false := by simp [State.serviceDue, hp]

theorem offerWord_of_halted (w : CmdWord) (h : s.halted = true) : offerWord w s = .fault .halted := by
  simp [offerWord, cmdReady_of_halted h, serviceDue_of_halted h, h]

/-- A pending edge comes before an offered word (60_exceptions.md R257). -/
theorem offerWord_of_irqPending (w : CmdWord) (hp : s.irqPending = true) (hh : s.halted = false) :
    offerWord w s = .next (service s) := by
  simp [offerWord, cmdReady_of_irqPending hp, serviceDue_of_irqPending hp hh]

theorem idleTurn_of_halted (h : s.halted = true) : idleTurn s = .fault .halted := by
  simp [idleTurn, serviceDue_of_halted h, h]

theorem idleTurn_of_irqPending (hp : s.irqPending = true) (hh : s.halted = false) :
    idleTurn s = .next (service s.takeEvent) := by
  simp [idleTurn, serviceDue_of_irqPending hp hh]

theorem idleTurn_of_not_irqPending (hp : s.irqPending = false) (hh : s.halted = false) : idleTurn s = .next s.takeEvent := by
  simp [idleTurn, serviceDue_of_not_irqPending hp, hh]

/-! ## The frame of SERVICE -/

theorem leaveService_serviceOnly (s : State) : ServiceOnly s s.leaveService :=
  ⟨rfl, rfl, rfl, rfl, rfl, rfl, rfl, rfl, rfl, rfl, rfl, rfl, rfl, rfl, rfl⟩

theorem service_serviceOnly (s : State) : ServiceOnly s (service s) := by
  have hstart := serviceStart_statusOnly s
  have hbegin : ServiceOnly s (serviceStart s) :=
    ⟨hstart.cfg, hstart.busAddr, hstart.clickSeen, hstart.downLatch, hstart.downStartMs, hstart.irqEn, hstart.fastCount,
      hstart.slowCount, hstart.lastClickMs, hstart.halted, hstart.fatalComponent, hstart.fatalCode, hstart.responses,
      hstart.clockFeed, hstart.eventFeed⟩
  obtain ⟨k, -, hk⟩ := service_parts s
  rw [hk]
  exact ((hbegin.trans (spinWait_serviceOnly _ _)).trans (advance_serviceOnly _)).trans (leaveService_serviceOnly _)

theorem serviceStart_tphase (s : State) : (serviceStart s).tphase = .idle := statusPass_tphase s.enterService

theorem service_tphase (s : State) : (service s).tphase = .idle := by
  obtain ⟨k, -, hk⟩ := service_parts s
  rw [hk]
  rw [State.leaveService_tphase]
  exact advance_tphase _ (spinWait_tphase _ _ (serviceStart_tphase s))

theorem service_ctx (s : State) : (service s).ctx = .idle := rfl

theorem ServiceOnly.eq_update (h : ServiceOnly s t) :
    t = { s with
      tphase := t.tphase
      tcount := t.tcount
      tidx := t.tidx
      rbuf := t.rbuf
      rlen := t.rlen
      buf := t.buf
      depth := t.depth
      int1Flags := t.int1Flags
      int2Flags := t.int2Flags
      clickFlags := t.clickFlags
      wakeState := t.wakeState
      irqPending := t.irqPending
      irqLine := t.irqLine
      spinCount := t.spinCount
      ctx := t.ctx
      trace := t.trace
      busFeed := t.busFeed
      lineFeed := t.lineFeed } := by
  cases s; cases t; cases h; simp_all

/-! ## The statements -/

/-- Settles O8: a held word stays offered because SERVICE takes no event. -/
theorem pendingEdgeIsServedBeforeACommand : Obligations.PendingEdgeIsServedBeforeACommand := by
  refine ⟨fun s w hp hh hw => ?_, fun s hp hh hq => ?_, fun s hp hh hq => ?_⟩
  · have hframe := service_serviceOnly s
    have hstill : (service s).nextEvent = s.nextEvent := congrArg (feedAt Config.freeEvent · 0) hframe.eventFeed
    exact ⟨_, (step_of_nextEvent_command hw).trans (offerWord_of_irqPending w hp hh), rfl, hstill.trans hw, hframe.responses⟩
  · exact (step_of_nextEvent_quiet hq).trans (idleTurn_of_irqPending hp hh)
  · exact (step_of_nextEvent_quiet hq).trans (idleTurn_of_not_irqPending hp hh)

/-- Settles O9: of the four events two are faults, and the other two are a `Line` and a `Reset`. -/
theorem haltedBlockTakesOnlyLineAndReset : Obligations.HaltedBlockTakesOnlyLineAndReset := by
  intro s hh
  have hcommand : ∀ w, s.nextEvent = .command w → step s = .fault .halted := fun w hw =>
    (step_of_nextEvent_command hw).trans (offerWord_of_halted w hh)
  have hquiet : s.nextEvent = .quiet → step s = .fault .halted := fun hq =>
    (step_of_nextEvent_quiet hq).trans (idleTurn_of_halted hh)
  refine ⟨?_, fun t hst => ?_⟩
  · rintro (⟨w, hw⟩ | hq)
    · exact hcommand w hw
    · exact hquiet hq
  · cases he : s.nextEvent with
    | line l => exact .inl ⟨l, rfl, Host.Outcome.next.inj (hst.symm.trans (step_of_nextEvent_line he))⟩
    | reset l =>
      refine .inr ⟨l, rfl, ?_⟩
      rw [Host.Outcome.next.inj (hst.symm.trans (step_of_nextEvent_reset he))]
      rfl
    | command w => exact nomatch hst.symm.trans (hcommand w he)
    | quiet => exact nomatch hst.symm.trans (hquiet he)

/-- The edge detector's bit, as the condition of R180. -/
theorem irqPending_or_edge (p level line en : Bool) :
    (p || (level && !line && en)) = if level = true ∧ line = false ∧ en = true then true else p := by
  cases level <;> cases line <;> cases en <;> simp

/-- Settles O10: the step is `lineStep`, and its bit is set on the edge of R180 alone. -/
theorem lineStepIsTheEdgeDetector : Obligations.LineStepIsTheEdgeDetector := by
  intro s level h
  rw [step_of_nextEvent_line h, ← irqPending_or_edge]
  rfl

/-- Settles O45: SERVICE's frame, with the transport and the context idle at its end. -/
theorem serviceChangesOnlyItsOwnRegisters : Obligations.ServiceChangesOnlyItsOwnRegisters := by
  intro s
  have h := (service_serviceOnly s).eq_update
  rw [service_tphase, service_ctx] at h
  exact ⟨_, rfl, h⟩

end Sys2Proof.Machine
end

section
/-! SUPPORT. The status pass (43_wake_sequencer.md R182): what each of its three reads leaves to the others. -/

namespace Sys2Proof.Machine

variable {s : State}

theorem statusPass_int1Flags (s : State) : (statusPass s).int1Flags = (readInt1 s).int1Flags := by
  rw [statusPass, (readClick_keeps _).1, (readInt2_keeps _).1]

theorem statusPass_int2Flags (s : State) : (statusPass s).int2Flags = (readInt2 (readInt1 s)).int2Flags := by
  rw [statusPass, (readClick_keeps _).2]

theorem readInt1_int2Flags (s : State) : (readInt1 s).int2Flags = s.int2Flags := (readInt1_keeps s).1

theorem readInt2_readInt1_clickFlags (s : State) : (readInt2 (readInt1 s)).clickFlags = s.clickFlags := by
  rw [(readInt2_keeps _).2, (readInt1_keeps s).2]

theorem readInt2_readInt1_statusOnly (s : State) : StatusOnly s (readInt2 (readInt1 s)) :=
  (readInt1_statusOnly s).trans (readInt2_statusOnly _)

theorem readInt1_busFeed (h : s.ReadAcked 0 1) : (readInt1 s).busFeed = feedSkip s.busFeed 7 := (readInt1_done h).2.1

/-- A read of one byte has seven wait points, so the next read starts that many further on. -/
theorem readInt1_readAcked (h : s.ReadAcked 0 1) : (readInt1 s).ReadAcked 0 1 ↔ s.ReadAcked 7 1 :=
  readAcked_of_feed (readInt1_busFeed h) (readInt1_statusOnly s).cfg 0 1

theorem readInt2_readInt1_busFeed (h1 : s.ReadAcked 0 1) (h2 : s.ReadAcked 7 1) :
    (readInt2 (readInt1 s)).busFeed = feedSkip s.busFeed 14 := by
  rw [(readInt2_done ((readInt1_readAcked h1).2 h2)).2.1, readInt1_busFeed h1, feedSkip_skip]

theorem readInt2_readInt1_readAcked (h1 : s.ReadAcked 0 1) (h2 : s.ReadAcked 7 1) :
    (readInt2 (readInt1 s)).ReadAcked 0 1 ↔ s.ReadAcked 14 1 :=
  readAcked_of_feed (readInt2_readInt1_busFeed h1 h2) (readInt2_readInt1_statusOnly s).cfg 0 1

theorem statusPass_int1Flags_of_acked (h : s.ReadAcked 0 1) :
    (statusPass s).int1Flags = s.int1Flags.or (decodeMotion s.cfg.motionLayout (s.busAt 5).byte) :=
  (statusPass_int1Flags s).trans (readInt1_done h).1

theorem statusPass_int1Flags_of_not_acked (h : ¬ s.ReadAcked 0 1) : (statusPass s).int1Flags = s.int1Flags :=
  (statusPass_int1Flags s).trans (readInt1_failed h)

theorem statusPass_int2Flags_of_acked (h : (readInt1 s).ReadAcked 0 1) :
    (statusPass s).int2Flags = s.int2Flags.or (decodeMotion s.cfg.motionLayout ((readInt1 s).busAt 5).byte) := by
  rw [statusPass_int2Flags, (readInt2_done h).1, readInt1_int2Flags, (readInt1_statusOnly s).cfg]

theorem statusPass_int2Flags_of_not_acked (h : ¬ (readInt1 s).ReadAcked 0 1) :
    (statusPass s).int2Flags = s.int2Flags := by
  rw [statusPass_int2Flags, readInt2_failed h, readInt1_int2Flags]

theorem statusPass_clickFlags_of_acked (h : (readInt2 (readInt1 s)).ReadAcked 0 1) :
    (statusPass s).clickFlags =
      s.clickFlags.or (decodeClick s.cfg.clickLayout ((readInt2 (readInt1 s)).busAt 5).byte) := by
  rw [statusPass, (readClick_done h).1, readInt2_readInt1_clickFlags, (readInt2_readInt1_statusOnly s).cfg]

theorem statusPass_clickFlags_of_not_acked (h : ¬ (readInt2 (readInt1 s)).ReadAcked 0 1) :
    (statusPass s).clickFlags = s.clickFlags := by
  rw [statusPass, readClick_failed h, readInt2_readInt1_clickFlags]

/-- The bytes of a status pass of which every read is acknowledged. -/
theorem statusPass_flags_of_acked (h1 : s.ReadAcked 0 1) (h2 : s.ReadAcked 7 1) (h3 : s.ReadAcked 14 1) :
    (statusPass s).int1Flags = s.int1Flags.or (decodeMotion s.cfg.motionLayout (s.busAt 5).byte) ∧
      (statusPass s).int2Flags = s.int2Flags.or (decodeMotion s.cfg.motionLayout (s.busAt 12).byte) ∧
      (statusPass s).clickFlags = s.clickFlags.or (decodeClick s.cfg.clickLayout (s.busAt 19).byte) := by
  have hf2 := statusPass_int2Flags_of_acked ((readInt1_readAcked h1).2 h2)
  have hf3 := statusPass_clickFlags_of_acked ((readInt2_readInt1_readAcked h1 h2).2 h3)
  rw [busAt_of_feed (readInt1_busFeed h1)] at hf2
  rw [busAt_of_feed (readInt2_readInt1_busFeed h1 h2)] at hf3
  exact ⟨statusPass_int1Flags_of_acked h1, hf2, hf3⟩

theorem statusPass_trace_of_acked (h1 : s.ReadAcked 0 1) (h2 : s.ReadAcked 7 1) (h3 : s.ReadAcked 14 1) :
    (statusPass s).trace = s.trace ++ readTrace s.cfg s.busAddr s.cfg.regInt1Src (s.answers 0 1) ++
      readTrace s.cfg s.busAddr s.cfg.regInt2Src (s.answers 7 1) ++
      readTrace s.cfg s.busAddr s.cfg.regClickSrc (s.answers 14 1) := by
  have hs1 := readInt1_statusOnly s
  have hs2 := readInt2_readInt1_statusOnly s
  rw [statusPass, (readClick_done ((readInt2_readInt1_readAcked h1 h2).2 h3)).2.2, hs2.cfg, hs2.busAddr,
    answers_of_feed (readInt2_readInt1_busFeed h1 h2), (readInt2_done ((readInt1_readAcked h1).2 h2)).2.2, hs1.cfg, hs1.busAddr,
    answers_of_feed (readInt1_busFeed h1), (readInt1_done h1).2.2]

/-- Settles O38: each read on its own, and then the three in a row. -/
theorem statusPassGathersFlags : Obligations.StatusPassGathersFlags := by
  refine ⟨fun s h1 h2 h3 => ?_, fun s => ⟨statusPass_int1Flags_of_acked, statusPass_int1Flags_of_not_acked,
    statusPass_int2Flags_of_acked, statusPass_int2Flags_of_not_acked, statusPass_clickFlags_of_acked,
    statusPass_clickFlags_of_not_acked⟩⟩
  obtain ⟨hf1, hf2, hf3⟩ := statusPass_flags_of_acked h1 h2 h3
  exact ⟨hf1, hf2, hf3, statusPass_trace_of_acked h1 h2 h3⟩

end Sys2Proof.Machine
end

section
/-! SUPPORT. ADVANCE (43_wake_sequencer.md R185 to R190), an equation per row of its table. -/

namespace Sys2Proof.Machine

variable {s : State}

/-! ## The rows -/

theorem advance_of_click (h : s.clickFlags.active = true) : advance s = { s with wakeState := .wakeByClick } := if_pos h

theorem advance_waitForDown (hc : s.clickFlags.active = false) (hw : s.wakeState = .waitForDown) :
    advance s = { applySoft s.cfg.cfgWaitUp s with wakeState := .waitForUp } := by
  simp only [advance, hc, hw, Bool.false_eq_true, if_false, advanceDown]

theorem advance_waitForUp (hc : s.clickFlags.active = false) (hw : s.wakeState = .waitForUp)
    (hz : zyHigh s.int1Flags s.int2Flags = true) : advance s = advanceUp s := by
  simp only [advance, hc, hw, hz, Bool.false_eq_true, if_false, if_true]

/-- The degenerate path (R188). -/
theorem advance_waitForUp_of_not_zyHigh (hc : s.clickFlags.active = false) (hw : s.wakeState = .waitForUp)
    (hz : zyHigh s.int1Flags s.int2Flags = false) : advance s = { s with wakeState := .wakeByTurnUp } := by
  simp only [advance, hc, hw, hz, Bool.false_eq_true, if_false]

/-- The states that wait for no gesture (R190). -/
theorem advance_not_waiting (hc : s.clickFlags.active = false)
    (hw : s.wakeState = .sleepStart ∨ s.wakeState = .wakeByClick ∨ s.wakeState = .wakeByTurnUp) : advance s = s := by
  rcases hw with hw | hw | hw <;> simp only [advance, hc, hw, Bool.false_eq_true, if_false]

theorem advanceUp_accept (h : (classify (capture s)).1 = .accept) :
    advanceUp s = { applySoft s.cfg.cfgWakeAccept (capture s) with wakeState := .wakeByTurnUp } := by
  simp only [advanceUp, h, (capture_captureOnly s).cfg]

theorem advanceUp_reject (h : (classify (capture s)).1 = .reject) :
    advanceUp s = { applySoft s.cfg.cfgWaitDown (capture s) with wakeState := .waitForDown } := by
  simp only [advanceUp, h, (capture_captureOnly s).cfg]

theorem applySoft_capture_trace {l : WriteList} (h : (capture s).ListAcked 0 l) :
    (applySoft l (capture s)).trace = (capture s).trace ++ listTrace s.busAddr l := by
  rw [(applySoft_done l _ h).1, (capture_captureOnly s).busAddr]

/-- Settles O43, row by row. -/
theorem advanceWritesTheListOfItsRow : Obligations.AdvanceWritesTheListOfItsRow := by
  refine ⟨fun s hc => advance_of_click hc, fun s hc hw hl => ?_, fun s hc hw hz => advance_waitForUp_of_not_zyHigh hc hw hz,
    fun s hc hw hz hv hl => ?_, fun s hc hw hz hv hl => ?_, fun s hc hw => advance_not_waiting hc hw⟩
  · rw [advance_waitForDown hc hw]
    exact ⟨(applySoft_done _ s hl).1, applySoft_buf _ s⟩
  · rw [advance_waitForUp hc hw hz, advanceUp_accept hv]
    exact applySoft_capture_trace hl
  · rw [advance_waitForUp hc hw hz, advanceUp_reject hv]
    exact applySoft_capture_trace hl

/-! ## The Capture Buffer and the bus -/

/-- After a capture the verdict of the captured samples can still be read off the Capture Buffer. -/
theorem classify_advanceUp (s : State) : classify (advanceUp s) = classify (capture s) := by
  have h : ∀ (l : WriteList) (w : WakeState), classify { applySoft l (capture s) with wakeState := w } = classify (capture s) :=
    fun l w => classify_congr (applySoft_cfg l _) (applySoft_depth l _) (applySoft_buf l _)
  unfold advanceUp; dsimp only
  split <;> exact h _ _

/-- Outside the two waiting states ADVANCE stays off the bus, click or not. -/
theorem advance_trace_not_waiting
    (hw : s.wakeState = .sleepStart ∨ s.wakeState = .wakeByClick ∨ s.wakeState = .wakeByTurnUp) :
    (advance s).trace = s.trace := by
  cases hc : s.clickFlags.active with
  | true => rw [advance_of_click hc]
  | false => rw [advance_not_waiting hc hw]

end Sys2Proof.Machine
end

section
/-! SUPPORT. The bounded spin-wait (43_wake_sequencer.md R181, R183, R184): what the line's registers hold after some samples, one
round of the wait by its sample, and the whole wait by induction on the rounds left. -/

namespace Sys2Proof.Machine

variable {s t u : State}

/-! ## The line after several samples -/

/-- The levels of the `Line` steps at the next `n` samples (00_scope.md R9). -/
def State.levels (s : State) (n : Nat) : List Bool := (List.range n).flatMap s.lineStepsAt

theorem State.levels_one (s : State) : s.levels 1 = s.lineStepsAt 0 := by simp [State.levels]

theorem State.levels_add {m : Nat} (h : t.lineFeed = feedSkip s.lineFeed m) (n : Nat) :
    s.levels (m + n) = s.levels m ++ t.levels n := by
  have ht : t.lineStepsAt = fun k => s.lineStepsAt (m + k) := funext (lineStepsAt_of_feed h)
  simp only [State.levels, List.range_add, List.flatMap_append, List.flatMap_map, ht]

/-- `n` line samples lead from `s` to `t` and nothing else has touched the line: the line has the last level given, and the edge
detector has seen every level (R180). -/
structure Sampled (n : Nat) (s t : State) : Prop where
  lineFeed : t.lineFeed = feedSkip s.lineFeed n
  irqEn : t.irqEn = s.irqEn
  irqLine : t.irqLine = (s.levels n).getLastD s.irqLine
  irqPending : t.irqPending = (s.irqPending || (s.irqEn && rises s.irqLine (s.levels n)))

namespace Sampled

/-- An operation that leaves the line alone. -/
theorem of_eq (hf : t.lineFeed = s.lineFeed) (he : t.irqEn = s.irqEn) (hl : t.irqLine = s.irqLine)
    (hp : t.irqPending = s.irqPending) : Sampled 0 s t where
  lineFeed := hf
  irqEn := he
  irqLine := hl
  irqPending := by simp [State.levels, rises, hp]

theorem of_statusOnly (h : StatusOnly s t) : Sampled 0 s t := .of_eq h.lineFeed h.irqEn h.irqLine h.irqPending

theorem of_transportOnly (h : TransportOnly s t) : Sampled 0 s t := .of_statusOnly h.toStatusOnly

theorem sampleLine (s : State) : Sampled 1 s (sampleLine s) where
  lineFeed := sampleLine_lineFeed s
  irqEn := sampleLine_irqEn s
  irqLine := by rw [State.levels_one, sampleLine_irqLine]
  irqPending := by rw [State.levels_one, sampleLine_pending_eq]

theorem trans {m n : Nat} (h : Sampled m s t) (g : Sampled n t u) : Sampled (m + n) s u where
  lineFeed := by rw [g.lineFeed, h.lineFeed, feedSkip_skip]
  irqEn := g.irqEn.trans h.irqEn
  irqLine := by
    rw [g.irqLine, h.irqLine, State.levels_add h.lineFeed]
    simp [List.getLastD_eq_getLast?, List.getLast?_append]
  irqPending := by
    rw [g.irqPending, h.irqPending, h.irqEn, h.irqLine, State.levels_add h.lineFeed, rises_append, Bool.and_or_distrib_left,
      Bool.or_assoc]

end Sampled

/-! ## One round of the wait -/

theorem spinWait_succ (k : Nat) (s : State) :
    spinWait (k + 1) s = if (sampleLine s).irqLine then
      if (sampleLine s).spinCount.toNat = spinMax then applySoft (sampleLine s).cfg.clickReinit (sampleLine s)
      else spinWait k (rereadPass (sampleLine s))
    else sampleLine s := rfl

theorem spinWait_asserted (k : Nat) (hc : s.spinCount.toNat ≠ 1000) (hl : (s.lineStepsAt 0).getLastD s.irqLine = true) :
    spinWait (k + 1) s = spinWait k (rereadPass (sampleLine s)) := by
  have hline : (sampleLine s).irqLine = true := by rw [sampleLine_irqLine, hl]
  have hcount : (sampleLine s).spinCount.toNat ≠ spinMax := by rwa [sampleLine_spinCount]
  rw [spinWait_succ, if_pos hline, if_neg hcount]

theorem spinWait_at_bound (k : Nat) (hc : s.spinCount.toNat = 1000) (hl : (s.lineStepsAt 0).getLastD s.irqLine = true) :
    spinWait (k + 1) s = applySoft s.cfg.clickReinit (sampleLine s) := by
  have hline : (sampleLine s).irqLine = true := by rw [sampleLine_irqLine, hl]
  have hcount : (sampleLine s).spinCount.toNat = spinMax := by rwa [sampleLine_spinCount]
  rw [spinWait_succ, if_pos hline, if_pos hcount, sampleLine_cfg]

theorem rereadPass_sampled (s : State) : Sampled 0 s (rereadPass s) := by
  have hc : Sampled 0 s { s with spinCount := s.spinCount + 1 } := .of_eq rfl rfl rfl rfl
  exact hc.trans (.of_statusOnly (rereadPass_statusOnly s))

/-- A re-read pass below the bound counts by one without wrapping (10_state.md R36). -/
theorem rereadPass_spinCount (h : s.spinCount.toNat < 1000) : (rereadPass s).spinCount.toNat = s.spinCount.toNat + 1 := by
  rw [(rereadPass_statusOnly s).spinCount]
  exact BitVec.toNat_add_of_lt (by simp; omega)

/-! ## The whole wait -/

/-- From `s` the wait has come to its end `t` after `n` counted re-reads of at most `k`: one more sample than that was taken, and
the line was still asserted only where all `k` were used (R183). -/
structure Waited (k n : Nat) (s t : State) : Prop where
  sampled : Sampled (n + 1) s t
  spinCount : t.spinCount.toNat = s.spinCount.toNat + n
  asserted : t.irqLine = true → n = k

theorem spinWait_waited_of_deasserted (k : Nat) (hl : (s.lineStepsAt 0).getLastD s.irqLine = false) :
    Waited k 0 s (spinWait (k + 1) s) := by
  rw [spinWait_deasserted k hl]
  refine ⟨.sampleLine s, by rw [sampleLine_spinCount, Nat.add_zero], fun h => ?_⟩
  rw [sampleLine_irqLine, hl] at h
  cases h

theorem spinWait_waited_at_bound (hc : s.spinCount.toNat = 1000) (hl : (s.lineStepsAt 0).getLastD s.irqLine = true) :
    Waited 0 0 s (spinWait 1 s) := by
  rw [spinWait_at_bound 0 hc hl]
  exact ⟨(Sampled.sampleLine s).trans (.of_transportOnly (applySoft_transportOnly _ _)),
    by rw [applySoft_spinCount, sampleLine_spinCount, Nat.add_zero], fun _ => rfl⟩

/-- One round before a wait: a sample that found the line asserted, and a re-read pass. -/
theorem Waited.after_round {k n : Nat} (hc : s.spinCount.toNat < 1000) (h : Waited k n (rereadPass (sampleLine s)) t) :
    Waited (k + 1) (n + 1) s t where
  sampled := by
    have hround := (Sampled.sampleLine s).trans (rereadPass_sampled _)
    have hall := hround.trans h.sampled
    rwa [show 1 + 0 + (n + 1) = n + 1 + 1 by omega] at hall
  spinCount := by
    rw [h.spinCount, rereadPass_spinCount (by rwa [sampleLine_spinCount]), sampleLine_spinCount]
    omega
  asserted ha := congrArg Nat.succ (h.asserted ha)

/-- The wait with `k` re-reads left to the bound, whatever the line does. -/
theorem spinWait_waited (k : Nat) (s : State) (hk : s.spinCount.toNat + k = 1000) :
    ∃ n ≤ k, Waited k n s (spinWait (k + 1) s) := by
  induction k generalizing s with
  | zero =>
    refine ⟨0, Nat.le_refl 0, ?_⟩
    cases hl : (s.lineStepsAt 0).getLastD s.irqLine with
    | false => exact spinWait_waited_of_deasserted 0 hl
    | true => exact spinWait_waited_at_bound hk hl
  | succ k ih =>
    cases hl : (s.lineStepsAt 0).getLastD s.irqLine with
    | false => exact ⟨0, Nat.zero_le _, spinWait_waited_of_deasserted _ hl⟩
    | true =>
      have hc : s.spinCount.toNat < 1000 := by omega
      have hnext : (rereadPass (sampleLine s)).spinCount.toNat = s.spinCount.toNat + 1 := by
        rw [rereadPass_spinCount (by rwa [sampleLine_spinCount]), sampleLine_spinCount]
      obtain ⟨n, hn, hw⟩ := ih (rereadPass (sampleLine s)) (by omega)
      rw [spinWait_asserted (k + 1) hc.ne hl]
      exact ⟨n + 1, Nat.succ_le_succ hn, hw.after_round hc⟩

/-! ## SERVICE (R181) -/

theorem serviceStart_sampled (s : State) : Sampled 0 { s with irqPending := false } (serviceStart s) := by
  have h := serviceStart_statusOnly s
  exact .of_eq h.lineFeed h.irqEn h.irqLine h.irqPending

theorem serviceStart_spinCount (s : State) : (serviceStart s).spinCount.toNat = 0 := rfl

/-- ADVANCE and the return touch neither the line nor the count. -/
theorem Waited.advance {k n : Nat} (h : Waited k n s t) : Waited k n s (Machine.advance t).leaveService where
  sampled := by
    obtain ⟨-, -, -, hp, hl, -, hf, -⟩ := advance_keeps t
    have hend : Sampled 0 t (Machine.advance t).leaveService := .of_eq hf (advance_serviceOnly t).irqEn hl hp
    exact h.sampled.trans hend
  spinCount := by
    obtain ⟨-, -, -, -, -, hc, -, -⟩ := advance_keeps t
    rw [State.leaveService_spinCount, hc, h.spinCount]
  asserted ha := by
    obtain ⟨-, -, -, -, hl, -, -, -⟩ := advance_keeps t
    exact h.asserted (hl.symm.trans ha)

/-- The wait of a SERVICE, from its entry with no edge pending to its end. -/
theorem service_waited (s : State) : ∃ n ≤ 1000, (service s).spinCount.toNat = n ∧
    Sampled (n + 1) { s with irqPending := false } (service s) ∧ ((service s).irqLine = true → n = 1000) := by
  obtain ⟨k, hk, hs⟩ := service_parts s
  obtain ⟨n, hn, hw⟩ := spinWait_waited k (serviceStart s) (by rw [serviceStart_spinCount, hk])
  obtain ⟨hsampled, hcount, hline⟩ := hw.advance
  rw [← hs] at hsampled hcount hline
  have hall := (serviceStart_sampled s).trans hsampled
  rw [Nat.zero_add] at hall
  rw [serviceStart_spinCount, Nat.zero_add] at hcount
  exact ⟨n, hk ▸ hn, hcount, hall, fun h => (hline h).trans hk⟩

/-- Settles O40: the count of re-reads ends at most at the bound, and the samples are one more. -/
theorem spinWaitIsBounded : Obligations.SpinWaitIsBounded := by
  intro s
  obtain ⟨n, hn, hcount, hsampled, hline⟩ := service_waited s
  refine ⟨hcount.trans_le hn, ?_, fun h => hcount.trans (hline h)⟩
  rw [hsampled.lineFeed, hcount]
  rfl

/-- Settles O44: no edge is pending when the wait begins, and the edge detector sees its levels. -/
theorem edgeDuringServiceIsKept : Obligations.EdgeDuringServiceIsKept := by
  intro s
  obtain ⟨n, -, hcount, hsampled, -⟩ := service_waited s
  dsimp only
  rw [hsampled.irqPending, hcount, Bool.false_or, Bool.and_eq_true, rises_iff]
  rfl

/-! ## Waits that end at once, and waits at the bound -/

/-- A line that is never found deasserted brings the wait to its bound. -/
theorem service_of_asserted (hl : s.irqLine = true) (h : ∀ j ≤ 1000, ∀ l ∈ s.lineStepsAt j, l = true) :
    (service s).spinCount.toNat = 1000 ∧ (service s).irqLine = true := by
  obtain ⟨n, hn, hcount, hsampled, hline⟩ := service_waited s
  have hend : (service s).irqLine = true := by
    rw [hsampled.irqLine]
    have hall : ∀ b ∈ s.irqLine :: s.levels (n + 1), b = true := by
      refine List.forall_mem_cons.2 ⟨hl, fun b hb => ?_⟩
      obtain ⟨j, hj, hb⟩ := List.mem_flatMap.1 hb
      exact h j ((Nat.le_of_lt_succ (List.mem_range.1 hj)).trans hn) b hb
    exact hall _ List.getLastD_mem_cons
  exact ⟨hcount.trans (hline hend), hend⟩

theorem serviceStart_level (s : State) :
    ((serviceStart s).lineStepsAt 0).getLastD (serviceStart s).irqLine = (s.lineStepsAt 0).getLastD s.irqLine := by
  have h := serviceStart_statusOnly s
  rw [lineStepsAt_congr h.lineFeed, h.irqLine]
  rfl

/-- A SERVICE whose line deasserts at the first sample takes only that sample. -/
theorem service_of_deasserted (h : (s.lineStepsAt 0).getLastD s.irqLine = false) :
    service s = (advance (sampleLine (serviceStart s))).leaveService := by
  obtain ⟨k, -, hs⟩ := service_parts s
  rw [hs, spinWait_deasserted k ((serviceStart_level s).trans h)]

theorem serviceStart_wakeState (s : State) : (serviceStart s).wakeState = s.wakeState := (serviceStart_statusOnly s).wakeState

/-- Settles O41: the wait by the sample it takes, and SERVICE by the samples of its wait. -/
theorem spinWaitEndsByTheLineOrTheBound : Obligations.SpinWaitEndsByTheLineOrTheBound := by
  refine ⟨fun s hl h => service_of_asserted hl h, fun s h => ?_, fun s k hc hl => spinWait_at_bound k hc hl,
    fun s k h => ?_, fun s k hc hl => spinWait_asserted k hc hl, fun s h hw => ?_⟩
  · obtain ⟨-, -, -, -, hline, hcount, -, -⟩ := advance_keeps (sampleLine (serviceStart s))
    rw [service_of_deasserted h, State.leaveService_spinCount, State.leaveService_irqLine, hline, hcount, sampleLine_spinCount,
      sampleLine_irqLine, serviceStart_level, h]
    exact ⟨rfl, rfl⟩
  · rw [spinWait_deasserted k h]
    exact ⟨rfl, sampleLine_trace s⟩
  · have hw' : (sampleLine (serviceStart s)).wakeState = s.wakeState := by rw [sampleLine_wakeState, serviceStart_wakeState]
    rw [← hw'] at hw
    rw [service_of_deasserted h, State.leaveService_trace, advance_trace_not_waiting hw, sampleLine_trace]
    rfl

end Sys2Proof.Machine
end

section
/-! SUPPORT. The wake state after a SERVICE (43_wake_sequencer.md R192) and the flags it is decided by. -/

namespace Sys2Proof.Machine

variable {s t : State}

/-- R192's table: the wake state `t` holds, by the state `w` before, the flags `t` holds and the verdict on its captured samples. -/
structure FollowsTable (w : WakeState) (t : State) : Prop where
  click : t.clickFlags.active = true → t.wakeState = .wakeByClick
  down : t.clickFlags.active = false → w = .waitForDown → t.wakeState = .waitForUp
  accept : t.clickFlags.active = false → w = .waitForUp → zyHigh t.int1Flags t.int2Flags = true →
    (classify t).1 = .accept → t.wakeState = .wakeByTurnUp
  reject : t.clickFlags.active = false → w = .waitForUp → zyHigh t.int1Flags t.int2Flags = true →
    (classify t).1 = .reject → t.wakeState = .waitForDown
  degenerate : t.clickFlags.active = false → w = .waitForUp → zyHigh t.int1Flags t.int2Flags = false →
    t.wakeState = .wakeByTurnUp
  still : t.clickFlags.active = false → w = .sleepStart ∨ w = .wakeByClick ∨ w = .wakeByTurnUp → t.wakeState = w

/-- ADVANCE keeps the flags it decides by, so the table can be read off the state after it. -/
theorem advance_followsTable (s : State) : FollowsTable s.wakeState (advance s) := by
  obtain ⟨h1, h2, hc, -⟩ := advance_keeps s
  constructor <;> rw [hc]
  case click => intro ha; rw [advance_of_click ha]
  case down => intro ha hw; rw [advance_waitForDown ha hw]
  case accept =>
    intro ha hw hz hv
    rw [h1, h2] at hz
    rw [advance_waitForUp ha hw hz] at hv ⊢
    rw [advanceUp_accept (classify_advanceUp s ▸ hv)]
  case reject =>
    intro ha hw hz hv
    rw [h1, h2] at hz
    rw [advance_waitForUp ha hw hz] at hv ⊢
    rw [advanceUp_reject (classify_advanceUp s ▸ hv)]
  case degenerate =>
    intro ha hw hz
    rw [h1, h2] at hz
    rw [advance_waitForUp_of_not_zyHigh ha hw hz]
  case still => intro ha hw; rw [advance_not_waiting ha hw]

theorem FollowsTable.leaveService {w : WakeState} (h : FollowsTable w s) : FollowsTable w s.leaveService := by
  have hv : classify s.leaveService = classify s := classify_congr rfl rfl rfl
  exact { h with accept := hv ▸ h.accept, reject := hv ▸ h.reject }

theorem service_followsTable (s : State) : FollowsTable s.wakeState (service s) := by
  obtain ⟨k, -, hs⟩ := service_parts s
  have h := (advance_followsTable (spinWait (k + 1) (serviceStart s))).leaveService
  rwa [(spinWait_keeps _ _).1, serviceStart_wakeState, ← hs] at h

/-! ## The flags (R181, R182) -/

/-- SERVICE depends on the state it starts from only through its first part. -/
theorem service_congr (h : serviceStart t = serviceStart s) : service t = service s :=
  congrArg (fun u => (advance (spinWait (spinMax + 1) u)).leaveService) h

/-- SERVICE clears the three flag registers at its entry (60_exceptions.md R258). -/
theorem service_of_any_flags (s : State) (f g : MotionFlags) (h : ClickFlags) :
    service { s with int1Flags := f, int2Flags := g, clickFlags := h } = service s :=
  service_congr rfl

theorem serviceStart_int1Flags (s : State) : (serviceStart s).int1Flags = (statusPass s.enterService).int1Flags := by
  rw [serviceStart]

theorem serviceStart_int2Flags (s : State) : (serviceStart s).int2Flags = (statusPass s.enterService).int2Flags := by
  rw [serviceStart]

theorem serviceStart_clickFlags (s : State) : (serviceStart s).clickFlags = (statusPass s.enterService).clickFlags := by
  rw [serviceStart]

/-- With the line deasserted at the first sample the flags are those of the first status pass. -/
theorem service_flags_of_deasserted (h : (s.lineStepsAt 0).getLastD s.irqLine = false) :
    (service s).int1Flags = (statusPass s.enterService).int1Flags ∧
      (service s).int2Flags = (statusPass s.enterService).int2Flags ∧
      (service s).clickFlags = (statusPass s.enterService).clickFlags := by
  obtain ⟨h1, h2, hc, -⟩ := advance_keeps (sampleLine (serviceStart s))
  rw [sampleLine_int1Flags, serviceStart_int1Flags] at h1
  rw [sampleLine_int2Flags, serviceStart_int2Flags] at h2
  rw [sampleLine_clickFlags, serviceStart_clickFlags] at hc
  rw [service_of_deasserted h, State.leaveService_int1Flags, State.leaveService_int2Flags, State.leaveService_clickFlags]
  exact ⟨h1, h2, hc⟩

theorem enterService_readAcked {k n : Nat} : s.enterService.ReadAcked k n ↔ s.ReadAcked k n :=
  readAcked_congr (s := s) (t := s.enterService) rfl rfl k n

/-- Settles O42: the table, the cleared flags, and the one status pass of a wait that ends at once. -/
theorem serviceFollowsTheTransitionTable : Obligations.ServiceFollowsTheTransitionTable := by
  refine ⟨fun s => ?_, service_of_any_flags, fun s hl => ?_⟩
  · have h := service_followsTable s
    exact ⟨h.click, fun hc => ⟨h.down hc, fun hw => ⟨h.accept hc hw, h.reject hc hw, h.degenerate hc hw⟩, h.still hc⟩⟩
  · obtain ⟨hf1, hf2, hf3⟩ := service_flags_of_deasserted hl
    dsimp only
    rw [hf1, hf2, hf3]
    refine ⟨fun h1 h2 h3 => ?_, fun h1 h2 h3 => ?_⟩
    · exact statusPass_flags_of_acked (enterService_readAcked.2 h1) (enterService_readAcked.2 h2) (enterService_readAcked.2 h3)
    · exact ⟨statusPass_int1Flags_of_not_acked h1, statusPass_int2Flags_of_not_acked h2, statusPass_clickFlags_of_not_acked h3⟩

end Sys2Proof.Machine
end

section
/-! SUPPORT. WAKEUP_CHECK (43_wake_sequencer.md R191): answered from the wake state, or from one instant reading. -/

namespace Sys2Proof.Machine

variable {s : State}

theorem exec_wakeupCheck_of_wakeByTurnUp (h : s.wakeState = .wakeByTurnUp) :
    exec .wakeupCheck s = .next (s.enterForeground.respond .ok 1 []) := by
  simp only [exec, execWakeupCheck, h]

theorem exec_wakeupCheck_not_woken (h : s.wakeState = .sleepStart ∨ s.wakeState = .waitForDown ∨ s.wakeState = .waitForUp) :
    exec .wakeupCheck s = .next (s.enterForeground.respond .ok 0 []) := by
  rcases h with h | h | h <;> simp only [exec, execWakeupCheck, h]

theorem exec_wakeupCheck_of_wakeByClick (h : s.wakeState = .wakeByClick) :
    exec .wakeupCheck s = .next ((instant s.enterForeground).2.respond .ok
      (boolValue (facingUp s.cfg (instant s.enterForeground).1)) []) := by
  simp only [exec, execWakeupCheck, h]

/-- Facing up: the reading arrived and its z is not below the threshold. -/
theorem facingUp_instant (s : State) : facingUp s.cfg (instant s).1 = true ↔
    s.ReadAcked 0 6 ∧ s.cfg.zUpThreshold ≤ (sampleAt s.cfg.sampleBits (s.answers 0 6) 0).z := by
  by_cases h : s.ReadAcked 0 6
  · simp [instant_some h, facingUp, h]
  · simp [instant_none h, facingUp, h]

/-- Settles O47: two answers without the bus, and one by an instant reading, whose frame is the transport's. -/
theorem wakeupCheckAnswersTheQuery : Obligations.WakeupCheckAnswersTheQuery := by
  refine ⟨fun s h => exec_wakeupCheck_of_wakeByTurnUp h, fun s h => exec_wakeupCheck_not_woken h, fun s h => ?_⟩
  have hup := facingUp_instant s.enterForeground
  have hframe := (instant_transportOnly s.enterForeground).respond_eq .ok
    (boolValue (facingUp s.cfg (instant s.enterForeground).1)) []
  rw [instant_tphase] at hframe
  rw [enterForeground_readAcked] at hup
  exact ⟨_, facingUp s.cfg (instant s.enterForeground).1, exec_wakeupCheck_of_wakeByClick h, hup, hframe,
    fun hr => (instant_acked (enterForeground_readAcked.2 hr)).2⟩

end Sys2Proof.Machine
end

section
/-! SUPPORT. A poll in its parts (44_click_debounce.md R220 to R227): what the orientation reading and the latch leave, the
ends of its click part, and the frame of the whole. -/

namespace Sys2Proof.Machine

variable {s t u : State}

/-! ## What a poll can write (R220) -/

/-- `t` differs from `s` at most in what a poll writes between its clock sample and its answer (R220). -/
structure PollOnly (s t : State) : Prop where
  cfg : t.cfg = s.cfg
  busAddr : t.busAddr = s.busAddr
  buf : t.buf = s.buf
  depth : t.depth = s.depth
  int1Flags : t.int1Flags = s.int1Flags
  int2Flags : t.int2Flags = s.int2Flags
  wakeState : t.wakeState = s.wakeState
  irqEn : t.irqEn = s.irqEn
  spinCount : t.spinCount = s.spinCount
  halted : t.halted = s.halted
  fatalComponent : t.fatalComponent = s.fatalComponent
  fatalCode : t.fatalCode = s.fatalCode
  responses : t.responses = s.responses
  clockFeed : t.clockFeed = s.clockFeed
  eventFeed : t.eventFeed = s.eventFeed

namespace PollOnly

theorem trans (h : PollOnly s t) (g : PollOnly t u) : PollOnly s u :=
  ⟨g.cfg.trans h.cfg, g.busAddr.trans h.busAddr, g.buf.trans h.buf, g.depth.trans h.depth, g.int1Flags.trans h.int1Flags,
    g.int2Flags.trans h.int2Flags, g.wakeState.trans h.wakeState, g.irqEn.trans h.irqEn, g.spinCount.trans h.spinCount,
    g.halted.trans h.halted, g.fatalComponent.trans h.fatalComponent, g.fatalCode.trans h.fatalCode,
    g.responses.trans h.responses, g.clockFeed.trans h.clockFeed, g.eventFeed.trans h.eventFeed⟩

theorem of_transportOnly (h : TransportOnly s t) : PollOnly s t := { h with }

theorem of_lineOnly (h : LineOnly s t) : PollOnly s t := { h with }

/-- The debounce registers and the click flags are a poll's to write. -/
theorem setClick (s : State) (f : ClickFlags) (seen : Bool) (fast slow : BitVec 8) (last : Time) :
    PollOnly s { s with clickFlags := f, clickSeen := seen, fastCount := fast, slowCount := slow, lastClickMs := last } := by
  constructor <;> rfl

/-- The state that answers a command of which only the parts of a poll have run. -/
theorem respond_eq (h : PollOnly s t) (st : Status) (x : Byte) (d : List Byte) :
    t.respond st x d = { s with
      tphase := t.tphase
      tcount := t.tcount
      tidx := t.tidx
      rbuf := t.rbuf
      rlen := t.rlen
      clickFlags := t.clickFlags
      clickSeen := t.clickSeen
      downLatch := t.downLatch
      downStartMs := t.downStartMs
      irqPending := t.irqPending
      irqLine := t.irqLine
      fastCount := t.fastCount
      slowCount := t.slowCount
      lastClickMs := t.lastClickMs
      ctx := .idle
      trace := t.trace
      busFeed := t.busFeed
      lineFeed := t.lineFeed
      responses := s.responses ++ [⟨st, x, d⟩] } := by
  cases s; cases t; cases h; simp_all [State.respond]

end PollOnly

/-! ## The windows (R221) -/

theorem windowEnded_iff (count : BitVec 8) (window now last : Time) :
    windowEnded count window now last = true ↔ count ≠ 0 ∧ window.toNat < (now - last).toNat := by
  simp [windowEnded, elapsed, BitVec.lt_def]

/-! ## The orientation reading and the held-down latch (R222) -/

theorem updateDownLatch_downStartMs_of_below {now : Time} {v : Sample} (hv : v.z < s.cfg.zDownThreshold) :
    (updateDownLatch now (some v) s).downStartMs = if s.downLatch then s.downStartMs else now := by
  unfold updateDownLatch; dsimp only
  rw [if_pos hv]
  split <;> rfl

theorem updateDownLatch_of_not_below {now : Time} {v : Sample} (hv : s.cfg.zDownThreshold ≤ v.z) :
    updateDownLatch now (some v) s = { s with downLatch := false } := if_neg (Int.not_lt.2 hv)

theorem sustainedDown_of_below {now : Time} {v : Sample} (hv : v.z < s.cfg.zDownThreshold) :
    sustainedDown now (some v) s = true ↔ 200 ≤ (now - s.downStartMs).toNat := by
  simp [sustainedDown, hv, elapsed, downHoldMs, BitVec.le_def]

theorem sustainedDown_of_not_below {now : Time} {v : Sample} (hv : s.cfg.zDownThreshold ≤ v.z) :
    sustainedDown now (some v) s = false := by
  simp [sustainedDown, hv]

/-- The latch's update writes the latch and its start time. -/
theorem updateDownLatch_eq_update (now : Time) (v : Option Sample) (s : State) :
    updateDownLatch now v s = { s with
      downLatch := (updateDownLatch now v s).downLatch
      downStartMs := (updateDownLatch now v s).downStartMs } := by
  unfold updateDownLatch
  split
  · split
    · split <;> rfl
    · rfl
  · rfl

theorem pollOriented_eq_update (s : State) : pollOriented s = { (instant (pollExpired s)).2 with
    downLatch := (pollOriented s).downLatch
    downStartMs := (pollOriented s).downStartMs } := updateDownLatch_eq_update _ _ _

/-- From part 1 to part 2 of a poll only the transport and the held-down latch run. -/
theorem pollOriented_transportOnly (s : State) :
    TransportOnly { pollExpired s with
      downLatch := (pollOriented s).downLatch
      downStartMs := (pollOriented s).downStartMs } (pollOriented s) := by
  have h := instant_transportOnly (pollExpired s)
  rw [pollOriented_eq_update]
  exact { h with downLatch := rfl, downStartMs := rfl }

theorem pollOriented_cfg (s : State) : (pollOriented s).cfg = s.cfg := (pollOriented_transportOnly s).cfg

theorem pollOriented_busAddr (s : State) : (pollOriented s).busAddr = s.busAddr := (pollOriented_transportOnly s).busAddr

theorem pollOriented_clickSeen (s : State) : (pollOriented s).clickSeen = s.clickSeen :=
  (pollOriented_transportOnly s).clickSeen

theorem pollOriented_clickFlags (s : State) : (pollOriented s).clickFlags = s.clickFlags :=
  (pollOriented_transportOnly s).clickFlags

theorem pollOriented_fastCount (s : State) : (pollOriented s).fastCount = (pollExpired s).fastCount :=
  (pollOriented_transportOnly s).fastCount

theorem pollOriented_slowCount (s : State) : (pollOriented s).slowCount = (pollExpired s).slowCount :=
  (pollOriented_transportOnly s).slowCount

theorem pollOriented_lastClickMs (s : State) : (pollOriented s).lastClickMs = s.lastClickMs :=
  (pollOriented_transportOnly s).lastClickMs

theorem pollOriented_lineFeed (s : State) : (pollOriented s).lineFeed = s.lineFeed := (pollOriented_transportOnly s).lineFeed

theorem pollOriented_irqLine (s : State) : (pollOriented s).irqLine = s.irqLine := (pollOriented_transportOnly s).irqLine

/-- The click part sees the level that the poll's line sample gives. -/
theorem pollOriented_level (s : State) :
    ((pollOriented s).lineStepsAt 0).getLastD (pollOriented s).irqLine = (s.lineStepsAt 0).getLastD s.irqLine := by
  rw [lineStepsAt_congr (pollOriented_lineFeed s), pollOriented_irqLine]

theorem pollOriented_pollOnly (s : State) : PollOnly s.enterForeground.sampleClock (pollOriented s) := by
  have h := pollOriented_transportOnly s
  exact { h with }

theorem pollOriented_bus (s : State) : (pollOriented s).tphase = .idle ∧
    (pollOriented s).trace = (instant (pollExpired s)).2.trace ∧
    (pollOriented s).busFeed = (instant (pollExpired s)).2.busFeed := by
  rw [pollOriented_eq_update]
  exact ⟨instant_tphase _, rfl, rfl⟩

/-- The click part sees the bus as the orientation reading leaves it. -/
theorem pollOriented_readAcked {k n : Nat} : (pollOriented s).ReadAcked k n ↔ (instant (pollExpired s)).2.ReadAcked k n := by
  have hcfg : (instant (pollExpired s)).2.cfg = s.cfg := (instant_transportOnly (pollExpired s)).cfg
  obtain ⟨-, -, hfeed⟩ := pollOriented_bus s
  exact readAcked_congr hfeed ((pollOriented_cfg s).trans hcfg.symm) k n

theorem pollExpired_readAcked {k n : Nat} : (pollExpired s).ReadAcked k n ↔ s.ReadAcked k n :=
  readAcked_congr (s := s) (t := pollExpired s) rfl rfl k n

theorem pollExpired_answers (s : State) (k n : Nat) : (pollExpired s).answers k n = s.answers k n :=
  answers_congr (s := s) (t := pollExpired s) rfl k n

/-! ## The click part (R223) -/

theorem qualifying_iff (a : Axis) (f : ClickFlags) :
    qualifying a f = true ↔ f.active = true ∧ f.single = true ∧ f.axis a = true := by
  simp [qualifying, and_assoc]

theorem saturatingSucc_toNat (n : BitVec 8) : (saturatingSucc n).toNat = min (n.toNat + 1) 255 := by
  unfold saturatingSucc
  split
  · next h => rw [h]; rfl
  · next h => bv_omega

theorem takeClick_of_qualifying {now : Time} {f : ClickFlags} (h : qualifying s.cfg.clickAxis f = true) :
    takeClick now f s = (true, { s with
      clickSeen := true
      clickFlags := f
      fastCount := saturatingSucc s.fastCount
      slowCount := saturatingSucc s.slowCount
      lastClickMs := now }) := if_pos h

theorem takeClick_of_not_qualifying {now : Time} {f : ClickFlags} (h : ¬ qualifying s.cfg.clickAxis f = true) :
    takeClick now f s = (false, { s with clickSeen := true, clickFlags := f }) := if_neg h

/-- The read of the click source, after the line sample. -/
def clickRead (s : State) : Option (List Byte) × State := busRead s.cfg.regClickSrc 1 (sampleLine s)

theorem clickRead_transportOnly (s : State) : TransportOnly (sampleLine s) (clickRead s).2 := busRead_transportOnly _ _ _

theorem clickRead_clickSeen (s : State) : (clickRead s).2.clickSeen = s.clickSeen := by
  rw [(clickRead_transportOnly s).clickSeen, sampleLine_clickSeen]

theorem clickRead_clickFlags (s : State) : (clickRead s).2.clickFlags = s.clickFlags := by
  rw [(clickRead_transportOnly s).clickFlags, sampleLine_clickFlags]

theorem sampleLine_readAcked {k n : Nat} : (sampleLine s).ReadAcked k n ↔ s.ReadAcked k n :=
  readAcked_congr (sampleLine_busFeed s) (sampleLine_cfg s) k n

theorem clickRead_done (h : s.ReadAcked 0 1) : (clickRead s).1 = some (s.answers 0 1) ∧
    (clickRead s).2.trace = s.trace ++ readTrace s.cfg s.busAddr s.cfg.regClickSrc (s.answers 0 1) := by
  unfold clickRead
  rw [busRead_done _ 1 _ (by decide) (sampleLine_readAcked.2 h), answers_congr (sampleLine_busFeed s)]
  simp

theorem clickRead_failed (h : ¬ s.ReadAcked 0 1) : (clickRead s).1 = none :=
  (busRead_none _ _ _).2 (mt sampleLine_readAcked.1 h)

/-- The line deasserted: the latch is cleared. -/
theorem pollClick_of_deasserted {now : Time} (hl : (s.lineStepsAt 0).getLastD s.irqLine = false) :
    pollClick now s = (false, { sampleLine s with clickSeen := false }) := by
  rw [← sampleLine_irqLine] at hl
  simp [pollClick, hl]

/-- The assertion already acted on. -/
theorem pollClick_of_seen {now : Time} (hl : (s.lineStepsAt 0).getLastD s.irqLine = true) (hs : s.clickSeen = true) :
    pollClick now s = (false, sampleLine s) := by
  rw [← sampleLine_irqLine] at hl
  simp [pollClick, hl, hs]

/-- A new assertion of which the source was read. -/
theorem pollClick_of_acked {now : Time} (hl : (s.lineStepsAt 0).getLastD s.irqLine = true) (hs : s.clickSeen = false)
    (h : s.ReadAcked 0 1) :
    pollClick now s = takeClick now (decodeClick s.cfg.clickLayout (s.busAt 5).byte) (clickRead s).2 := by
  rw [← sampleLine_irqLine] at hl
  have hr := (clickRead_done h).1
  unfold clickRead at hr ⊢
  simp [pollClick, hl, hs, hr, State.answers]

/-- A click source byte that was read is recorded, whether it counts or not. -/
theorem takeClick_records (now : Time) (f : ClickFlags) (s : State) : (takeClick now f s).2.clickSeen = true ∧
    (takeClick now f s).2.clickFlags = f ∧ (takeClick now f s).2.trace = s.trace := by
  unfold takeClick
  split <;> exact ⟨rfl, rfl, rfl⟩

theorem pollClick_records_of_acked (now : Time) (hl : (s.lineStepsAt 0).getLastD s.irqLine = true)
    (hs : s.clickSeen = false) (h : s.ReadAcked 0 1) : (pollClick now s).2.clickSeen = true ∧
    (pollClick now s).2.clickFlags = decodeClick s.cfg.clickLayout (s.busAt 5).byte ∧
    (pollClick now s).2.trace = s.trace ++ readTrace s.cfg s.busAddr s.cfg.regClickSrc (s.answers 0 1) := by
  rw [pollClick_of_acked hl hs h, ← (clickRead_done h).2]
  exact takeClick_records _ _ _

theorem clickRead_clickAxis (s : State) : (clickRead s).2.cfg.clickAxis = s.cfg.clickAxis := by
  rw [(clickRead_transportOnly s).cfg, sampleLine_cfg]

theorem pollClick_counts_of_acked (now : Time) (hl : (s.lineStepsAt 0).getLastD s.irqLine = true)
    (hs : s.clickSeen = false) (h : s.ReadAcked 0 1)
    (hq : qualifying s.cfg.clickAxis (decodeClick s.cfg.clickLayout (s.busAt 5).byte) = true) :
    (pollClick now s).1 = true ∧ (pollClick now s).2.lastClickMs = now ∧
      (pollClick now s).2.fastCount = saturatingSucc s.fastCount ∧
      (pollClick now s).2.slowCount = saturatingSucc s.slowCount := by
  have hr := clickRead_transportOnly s
  rw [← clickRead_clickAxis] at hq
  rw [pollClick_of_acked hl hs h, takeClick_of_qualifying hq, hr.fastCount, hr.slowCount, sampleLine_fastCount,
    sampleLine_slowCount]
  exact ⟨rfl, rfl, rfl, rfl⟩

theorem pollClick_uncounted_of_acked (now : Time) (hl : (s.lineStepsAt 0).getLastD s.irqLine = true)
    (hs : s.clickSeen = false) (h : s.ReadAcked 0 1)
    (hq : ¬ qualifying s.cfg.clickAxis (decodeClick s.cfg.clickLayout (s.busAt 5).byte) = true) :
    (pollClick now s).1 = false := by
  rw [← clickRead_clickAxis] at hq
  rw [pollClick_of_acked hl hs h, takeClick_of_not_qualifying hq]

/-- A new assertion of which the source could not be read. -/
theorem pollClick_of_not_acked {now : Time} (hl : (s.lineStepsAt 0).getLastD s.irqLine = true) (hs : s.clickSeen = false)
    (h : ¬ s.ReadAcked 0 1) : pollClick now s = (false, (clickRead s).2) := by
  rw [← sampleLine_irqLine] at hl
  have hr := clickRead_failed h
  unfold clickRead at hr ⊢
  simp [pollClick, hl, hs, hr]

/-- The five ends of a poll's click part. -/
theorem pollClick_cases (now : Time) (s : State) :
    pollClick now s = (false, { sampleLine s with clickSeen := false }) ∨ pollClick now s = (false, sampleLine s) ∨
    pollClick now s = (false, (clickRead s).2) ∨
    (∃ f, pollClick now s = (false, { (clickRead s).2 with clickSeen := true, clickFlags := f })) ∨
    ∃ f, pollClick now s = (true, { (clickRead s).2 with
      clickSeen := true
      clickFlags := f
      fastCount := saturatingSucc (clickRead s).2.fastCount
      slowCount := saturatingSucc (clickRead s).2.slowCount
      lastClickMs := now }) := by
  cases hl : (s.lineStepsAt 0).getLastD s.irqLine with
  | false => exact .inl (pollClick_of_deasserted hl)
  | true =>
    cases hs : s.clickSeen with
    | true => exact .inr (.inl (pollClick_of_seen hl hs))
    | false =>
      by_cases h : s.ReadAcked 0 1
      · rw [pollClick_of_acked hl hs h]
        by_cases hq : qualifying (clickRead s).2.cfg.clickAxis (decodeClick s.cfg.clickLayout (s.busAt 5).byte) = true
        · exact .inr (.inr (.inr (.inr ⟨_, takeClick_of_qualifying hq⟩)))
        · exact .inr (.inr (.inr (.inl ⟨_, takeClick_of_not_qualifying hq⟩)))
      · exact .inr (.inr (.inl (pollClick_of_not_acked hl hs h)))

/-- What holds after the line sample, and the click source's read and the debounce registers do not touch, holds after the
click part. -/
theorem pollClick_preserves (P : State → Prop) (now : Time) (s : State) (hl : P (sampleLine s))
    (ht : ∀ t u, TransportOnly t u → P t → P u)
    (hc : ∀ t f seen fast slow last, P t →
      P { t with clickFlags := f, clickSeen := seen, fastCount := fast, slowCount := slow, lastClickMs := last }) :
    P (pollClick now s).2 := by
  have hr : P (clickRead s).2 := ht _ _ (clickRead_transportOnly s) hl
  obtain h | h | h | ⟨f, h⟩ | ⟨f, h⟩ := pollClick_cases now s <;> rw [h]
  · exact hc _ (sampleLine s).clickFlags _ (sampleLine s).fastCount (sampleLine s).slowCount (sampleLine s).lastClickMs hl
  · exact hl
  · exact hr
  · exact hc _ f _ (clickRead s).2.fastCount (clickRead s).2.slowCount (clickRead s).2.lastClickMs hr
  · exact hc _ f _ _ _ _ hr

theorem pollClick_pollOnly (now : Time) (s : State) : PollOnly s (pollClick now s).2 :=
  pollClick_preserves (PollOnly s) now s (.of_lineOnly (sampleLine_lineOnly s)) (fun _ _ ht h => h.trans (.of_transportOnly ht))
    (fun t f seen fast slow last h => h.trans (.setClick t f seen fast slow last))

theorem pollClick_sampled (now : Time) (s : State) : Sampled 1 s (pollClick now s).2 :=
  pollClick_preserves (Sampled 1 s) now s (.sampleLine s) (fun _ _ ht h => h.trans (.of_transportOnly ht))
    (fun _ _ _ _ _ _ h => { h with })

theorem pollClick_keepsDownLatch (now : Time) (s : State) :
    (pollClick now s).2.downLatch = s.downLatch ∧ (pollClick now s).2.downStartMs = s.downStartMs :=
  pollClick_preserves (fun t => t.downLatch = s.downLatch ∧ t.downStartMs = s.downStartMs) now s (by simp)
    (fun _ _ ht h => by rwa [ht.downLatch, ht.downStartMs]) (fun _ _ _ _ _ _ h => h)

theorem pollClick_tphase (now : Time) (h : s.tphase = .idle) : (pollClick now s).2.tphase = .idle := by
  obtain e | e | e | ⟨f, e⟩ | ⟨f, e⟩ := pollClick_cases now s <;> rw [e]
  · exact (sampleLine_lineOnly s).tphase.trans h
  · exact (sampleLine_lineOnly s).tphase.trans h
  all_goals exact busRead_tphase _ _ _

/-- A poll that counts no click keeps the counters and the time of the last click. -/
theorem pollClick_keepsCounters {now : Time} (h : (pollClick now s).1 = false) :
    (pollClick now s).2.fastCount = s.fastCount ∧ (pollClick now s).2.slowCount = s.slowCount ∧
      (pollClick now s).2.lastClickMs = s.lastClickMs := by
  have hr := clickRead_transportOnly s
  have hread : (clickRead s).2.fastCount = s.fastCount ∧ (clickRead s).2.slowCount = s.slowCount ∧
      (clickRead s).2.lastClickMs = s.lastClickMs := by
    rw [hr.fastCount, hr.slowCount, hr.lastClickMs]; simp
  obtain e | e | e | ⟨f, e⟩ | ⟨f, e⟩ := pollClick_cases now s <;> rw [e] at h ⊢
  · simp
  · simp
  · exact hread
  · exact hread
  · cases h

end Sys2Proof.Machine
end

section
/-! SUPPORT. EVENT_FLAGS and EVENTS_CLEAR as commands (44_click_debounce.md R220 to R226), from the parts of a poll. -/

namespace Sys2Proof.Machine

variable {s t : State} {v : Byte}

/-- The state a poll ends in. -/
def pollEnd (s : State) : State := (pollClick (s.clockAt 0) (pollOriented s)).2.respond .ok (pollEvents s) []

theorem exec_eventFlags (s : State) : exec .eventFlags s = .next (pollEnd s) := execEventFlags_eq s

theorem poll_pollOnly (s : State) :
    PollOnly s.enterForeground.sampleClock (pollClick (s.clockAt 0) (pollOriented s)).2 :=
  (pollOriented_pollOnly s).trans (pollClick_pollOnly _ _)

theorem poll_sampled (s : State) : Sampled 1 s (pollClick (s.clockAt 0) (pollOriented s)).2 := by
  have ho := pollOriented_transportOnly s
  have h0 : Sampled 0 s (pollOriented s) := .of_eq ho.lineFeed ho.irqEn ho.irqLine ho.irqPending
  have h1 := pollClick_sampled (s.clockAt 0) (pollOriented s)
  exact h0.trans h1

theorem pollEnd_responses (s : State) : (pollEnd s).responses = s.responses ++ [⟨.ok, pollEvents s, []⟩] :=
  congrArg (· ++ _) (poll_pollOnly s).responses

/-! ## The event bits of a poll (30_encoding.md R102) -/

theorem pollEvents_bits (s : State) :
    (pollEvents s).getLsbD 0 = windowEnded s.fastCount fastWindowMs (s.clockAt 0) s.lastClickMs ∧
    (pollEvents s).getLsbD 1 = windowEnded s.slowCount slowWindowMs (s.clockAt 0) s.lastClickMs ∧
    (pollEvents s).getLsbD 2 = (pollClick (s.clockAt 0) (pollOriented s)).1 ∧
    (pollEvents s).getLsbD 3 = sustainedDown (s.clockAt 0) (instant (pollExpired s)).1 (pollOriented s) ∧
    (pollEvents s).toNat < 16 := eventBits_bits _ _ _ _

/-! ## The statements -/

/-- Settles O48: the frame of a poll's parts, with its answer, and its one line sample. -/
theorem pollAlwaysAnswersFourEventBits : Obligations.PollAlwaysAnswersFourEventBits := by
  intro s
  have hframe := (poll_pollOnly s).respond_eq .ok (pollEvents s) []
  have hphase := pollClick_tphase (s.clockAt 0) (pollOriented_bus s).1
  obtain ⟨hfeed, -, hline, hpending⟩ := poll_sampled s
  obtain ⟨-, -, -, -, hlt⟩ := pollEvents_bits s
  refine ⟨pollEnd s, pollEvents s, exec_eventFlags s, hlt, ?_⟩
  unfold pollEnd
  generalize (pollClick (s.clockAt 0) (pollOriented s)).2 = q at *
  rw [State.levels_one] at hline hpending
  rw [hphase, hfeed, hline] at hframe
  refine ⟨hframe, ?_⟩
  rw [State.respond_irqPending, hpending, Bool.or_eq_true, Bool.and_eq_true, rises_iff]

/-- Settles O49: part 1 of the poll, whose counters a poll without a click keeps. -/
theorem windowsEndAfterTheirTime : Obligations.WindowsEndAfterTheirTime := by
  intro s e
  obtain ⟨hbit0, hbit1, hbit2, -, -⟩ := pollEvents_bits s
  refine ⟨pollEnd s, pollEvents s, exec_eventFlags s, pollEnd_responses s, ?_, ?_, fun hclick => ?_⟩
  · rw [hbit0]; exact windowEnded_iff _ _ _ _
  · rw [hbit1]; exact windowEnded_iff _ _ _ _
  · rw [hbit2] at hclick
    obtain ⟨hfast, hslow, hlast⟩ := pollClick_keepsCounters hclick
    rw [hbit0, hbit1, pollEnd, State.respond_fastCount, State.respond_slowCount,
      State.respond_lastClickMs, hfast, hslow, hlast]
    exact ⟨pollOriented_fastCount s, pollOriented_slowCount s, pollOriented_lastClickMs s⟩

/-- The poll that leads from `s` to `t` is the one that `v` answers. -/
theorem pollEnd_unique (he : exec .eventFlags s = .next t) (hr : t.responses = s.responses ++ [⟨.ok, v, []⟩]) :
    t = pollEnd s ∧ v = pollEvents s := by
  rw [exec_eventFlags] at he
  cases he
  rw [pollEnd_responses] at hr
  exact ⟨rfl, by simpa using hr.symm⟩

/-- A poll of a zero counter reports no end of its window. -/
theorem poll_of_zero_counters (t : State) : ∃ (u : State) (w : Byte), exec .eventFlags t = .next u ∧
    u.responses = t.responses ++ [⟨.ok, w, []⟩] ∧ (t.fastCount = 0 → w.getLsbD 0 = false) ∧
    (t.slowCount = 0 → w.getLsbD 1 = false) := by
  obtain ⟨u, w, he, hr, hfast, hslow, -⟩ := windowsEndAfterTheirTime t
  refine ⟨u, w, he, hr, fun h => ?_, fun h => ?_⟩
  · exact Bool.eq_false_iff.2 fun hw => (hfast.1 hw).1 h
  · exact Bool.eq_false_iff.2 fun hw => (hslow.1 hw).1 h

/-- Settles O50: a reported window's counter is zero when the next poll begins. -/
theorem windowEndIsReportedOnce : Obligations.WindowEndIsReportedOnce := by
  intro s t v he hr hclick
  obtain ⟨rfl, rfl⟩ := pollEnd_unique he hr
  obtain ⟨t, v, he', hr', -, -, hcounts⟩ := windowsEndAfterTheirTime s
  obtain ⟨rfl, rfl⟩ := pollEnd_unique he' hr'
  obtain ⟨hfast, hslow, -⟩ := hcounts hclick
  obtain ⟨u, w, heu, hru, h0, h1⟩ := poll_of_zero_counters (pollEnd s)
  exact ⟨u, w, heu, hru, fun hv => h0 (by rw [hfast, if_pos hv]), fun hv => h1 (by rw [hslow, if_pos hv])⟩

/-- Settles O53: the command's equation, and a poll of the two zero counters. -/
theorem eventsClearZeroesTheCounters : Obligations.EventsClearZeroesTheCounters := by
  refine ⟨fun s => rfl, fun s t he => ?_⟩
  cases he
  obtain ⟨u, w, heu, hru, h0, h1⟩ := poll_of_zero_counters
    ({ s.enterForeground with fastCount := 0, slowCount := 0 }.respond .ok 0 [])
  exact ⟨u, w, heu, hru, h0 rfl, h1 rfl⟩

/-! ## The held-down latch (R222) -/

theorem instant_pollExpired_of_acked (h : s.ReadAcked 0 6) :
    (instant (pollExpired s)).1 = some (sampleAt s.cfg.sampleBits (s.answers 0 6) 0) := by
  rw [instant_some (pollExpired_readAcked.2 h), pollExpired_answers]; rfl

theorem instant_pollExpired_of_not_acked (h : ¬ s.ReadAcked 0 6) : (instant (pollExpired s)).1 = none :=
  instant_none (mt pollExpired_readAcked.1 h)

/-- Settles O51: the three cases of part 2, which part 3 leaves alone. -/
theorem sustainedDownIsTimed : Obligations.SustainedDownIsTimed := by
  intro s now z
  have hi := instant_transportOnly (pollExpired s)
  have hz : (instant (pollExpired s)).2.cfg.zDownThreshold = s.cfg.zDownThreshold := congrArg (·.zDownThreshold) hi.cfg
  have hz' : (pollOriented s).cfg.zDownThreshold = s.cfg.zDownThreshold :=
    congrArg (·.zDownThreshold) (pollOriented_pollOnly s).cfg
  have hlatch : (instant (pollExpired s)).2.downLatch = s.downLatch := hi.downLatch
  have hstart : (instant (pollExpired s)).2.downStartMs = s.downStartMs := hi.downStartMs
  refine ⟨pollEnd s, pollEvents s, exec_eventFlags s, pollEnd_responses s, ?_⟩
  obtain ⟨-, -, -, hbit3, -⟩ := pollEvents_bits s
  obtain ⟨hkeep, hkeepStart⟩ := pollClick_keepsDownLatch (s.clockAt 0) (pollOriented s)
  rw [pollEnd, State.respond_downLatch, State.respond_downStartMs, hkeep, hkeepStart, hbit3]
  refine ⟨fun hr hv => ?_, fun hr hv => ?_, fun hr => ?_⟩
  · have hbelow := updateDownLatch_downStartMs_of_below (now := now) (hz ▸ hv)
    have hset := updateDownLatch_downLatch (now := now) (hz ▸ hv)
    rw [instant_pollExpired_of_acked hr, sustainedDown_of_below (hz' ▸ hv), pollOriented, instant_pollExpired_of_acked hr]
    rw [hlatch, hstart] at hbelow
    exact ⟨hset, hbelow, .rfl⟩
  · rw [instant_pollExpired_of_acked hr, sustainedDown_of_not_below (hz' ▸ hv), pollOriented, instant_pollExpired_of_acked hr,
      updateDownLatch_of_not_below (hz ▸ hv)]
    exact ⟨rfl, hstart, rfl⟩
  · rw [pollOriented, instant_pollExpired_of_not_acked hr]
    exact ⟨hlatch, hstart, rfl⟩

/-! ## The click part and the bus (R222, R223) -/

theorem instant_pollExpired_done (h : s.ReadAcked 0 6) :
    (instant (pollExpired s)).2.busFeed = feedSkip s.busFeed 12 ∧
      (instant (pollExpired s)).2.trace = s.trace ++ readTrace s.cfg s.busAddr s.cfg.regOut (s.answers 0 6) := by
  have hd := busRead_done s.cfg.regOut 6 (pollExpired s) (by decide) (pollExpired_readAcked.2 h)
  rw [pollExpired_answers] at hd
  exact ⟨congrArg (fun r => r.2.busFeed) hd, congrArg (fun r => r.2.trace) hd⟩

/-- Settles O52: the ends of the click part, at the state that parts 1 and 2 leave. -/
theorem clickIsCountedOncePerAssertion : Obligations.ClickIsCountedOncePerAssertion := by
  intro s now x u f level counts
  obtain ⟨-, -, hbit2, -, -⟩ := pollEvents_bits s
  obtain ⟨-, htrace, hfeed⟩ := pollOriented_bus s
  change (pollOriented s).trace = u.trace at htrace
  change (pollOriented s).busFeed = u.busFeed at hfeed
  have hlevel : ((pollOriented s).lineStepsAt 0).getLastD (pollOriented s).irqLine = level := pollOriented_level s
  have hf : decodeClick (pollOriented s).cfg.clickLayout ((pollOriented s).busAt 5).byte = f := by
    rw [pollOriented_cfg, busAt_congr hfeed]
  have hcounts : qualifying (pollOriented s).cfg.clickAxis f = true ↔ counts := by
    rw [pollOriented_cfg]; exact qualifying_iff _ f
  refine ⟨instant_pollExpired_done, pollEnd s, pollEvents s, exec_eventFlags s, pollEnd_responses s, ?_⟩
  rw [hbit2, pollEnd, State.respond_clickSeen, State.respond_clickFlags, State.respond_trace, State.respond_busFeed,
    State.respond_fastCount, State.respond_slowCount, State.respond_lastClickMs, ← hlevel, ← pollOriented_clickSeen s,
    ← pollOriented_clickFlags s, ← hfeed, ← htrace]
  refine ⟨fun hl hs hr => ?_, fun hl hs hr => ?_, fun hl hs => ?_, fun hl => ?_⟩
  · have hp := pollOriented_readAcked.2 hr
    obtain ⟨hseen, hflags, hread⟩ := pollClick_records_of_acked now hl hs hp
    have hcount := pollClick_counts_of_acked now hl hs hp
    have huncounted := pollClick_uncounted_of_acked now hl hs hp
    rw [hf, hcounts] at hcount huncounted
    rw [pollOriented_cfg, pollOriented_busAddr, answers_congr hfeed] at hread
    refine ⟨hseen, hflags.trans hf, hread, fun hc => ?_, huncounted⟩
    obtain ⟨hclick, hlast, hfast, hslow⟩ := hcount hc
    rw [hfast, hslow, saturatingSucc_toNat, saturatingSucc_toNat, pollOriented_fastCount, pollOriented_slowCount]
    exact ⟨hclick, hlast, rfl, rfl⟩
  · rw [pollClick_of_not_acked hl hs (mt pollOriented_readAcked.1 hr)]
    exact ⟨(clickRead_clickSeen _).trans hs, clickRead_clickFlags _, rfl⟩
  · rw [pollClick_of_seen hl hs]
    exact ⟨(sampleLine_clickSeen _).trans hs, sampleLine_clickFlags _, rfl, sampleLine_busFeed _, sampleLine_trace _⟩
  · rw [pollClick_of_deasserted hl]
    exact ⟨rfl, sampleLine_clickFlags _, rfl, sampleLine_busFeed _, sampleLine_trace _⟩

end Sys2Proof.Machine
end

section
/-! SUPPORT. Fatal terminations and progress (60_exceptions.md R252, R253, R267; 41_device_config.md R135): the commands that can
halt the block and in what state they leave it, and the one command that can be refused. -/

namespace Sys2Proof.Machine

variable {s t : State} {i : Instr} {w : CmdWord} {r : Refusal} {v : Byte} {a : BusAddr}

/-! ## The commands that halt -/

/-- Every command but INIT and ENABLE leaves the block running or halted as it was. -/
theorem exec_halted (hinit : i ≠ .init) (henable : i ≠ .enable) (he : exec i s = .next t) : t.halted = s.halted := by
  have hi := (instant_silent s.enterForeground).halted
  cases i with
  | read r n =>
    cases he; dsimp only
    split
    · rfl
    · split <;> exact busRead_halted _ _ _
  | write r v => cases he; exact busWrite_halted _ _ _
  | setaddr b => cases he; rfl
  | init => exact absurd rfl hinit
  | enable => exact absurd rfl henable
  | sleep => cases he; exact (armWake_silent _).halted.trans (applySoft_halted _ _)
  | readInstant =>
    cases he; dsimp only
    split <;> exact hi
  | wakeupCheck =>
    cases he
    split
    case _ => rfl
    case _ => exact hi
    all_goals rfl
  | eventFlags =>
    rw [exec_eventFlags] at he
    cases he
    exact (poll_pollOnly s).halted
  | eventsClear => cases he; rfl

/-- A command begun in `s` was ended in `t` by `raise Fatal(code)`, under the parameters of `s` (R252). -/
def EndsFatally (code : Nat) (s t : State) : Prop := ∃ x : State, x.cfg = s.cfg ∧ t = x.raiseFatal code

theorem EndsFatally.registers {code : Nat} (h : EndsFatally code s t) :
    t.fatalComponent = s.cfg.componentId ∧ t.fatalCode = code ∧ t.ctx = .idle := by
  obtain ⟨x, hcfg, rfl⟩ := h
  exact ⟨congrArg Params.componentId hcfg, rfl, rfl⟩

/-- The check of an identity byte halts only on a mismatch (R253). -/
theorem checkIdentity_probe_of_halts (hh : s.halted = false) (ht : (checkIdentity v (probe a s).2).halted = true) :
    checkIdentity v (probe a s).2 = (probe a s).2.raiseFatal s.cfg.fatalIdentity := by
  refine checkIdentity_probe_of_ne fun hv => ?_
  rw [checkIdentity_probe_of_eq hv, State.respond_halted, (probe_silent a s).halted, hh] at ht
  exact Bool.noConfusion ht

theorem initBody_endsFatally (hh : s.halted = false) (ht : (initBody s).halted = true) :
    EndsFatally s.cfg.fatalDiscovery s (initBody s) ∨ EndsFatally s.cfg.fatalIdentity s (initBody s) := by
  have hcfg : (probe s.cfg.addrSecondary s.primaryProbed).2.cfg = s.cfg := by rw [probe_cfg, primaryProbed_cfg]
  have hprobed : s.primaryProbed.halted = false := (probe_silent _ s).halted.trans hh
  by_cases h : s.ReadAcked 0 1
  · rw [initBody_of_primary h] at ht ⊢
    exact .inr ⟨_, probe_cfg _ _, checkIdentity_probe_of_halts hh ht⟩
  · by_cases hu : s.primaryProbed.ReadAcked 0 1
    · rw [initBody_of_secondary h hu] at ht ⊢
      exact .inr ⟨_, hcfg, by rw [checkIdentity_probe_of_halts hprobed ht, primaryProbed_cfg]⟩
    · exact .inl ⟨_, hcfg, initBody_of_neither h hu⟩

theorem exec_init_endsFatally (he : exec .init s = .next t) (hh : s.halted = false) (ht : t.halted = true) :
    EndsFatally s.cfg.fatalDiscovery s t ∨ EndsFatally s.cfg.fatalIdentity s t := by
  cases hself : s.cfg.selfTest with
  | true => exact nomatch he.symm.trans (initWithSelfTestIsRefused s hself)
  | false =>
    cases he.symm.trans (exec_init_eq hself)
    exact initBody_endsFatally (s := s.enterForeground) hh ht

theorem exec_enable_endsFatally (he : exec .enable s = .next t) (hh : s.halted = false) (ht : t.halted = true) :
    EndsFatally s.cfg.fatalConfig s t := by
  have hframe := (enableSoft_transportOnly s).trans (applyHard_transportOnly s.cfg.activeHard _)
  cases hw : (applyHard s.cfg.activeHard s.enableSoft).1 with
  | true =>
    rw [exec_enable_eq, if_pos hw] at he
    cases he
    exact nomatch ht.symm.trans (hframe.halted.trans hh)
  | false =>
    cases he.symm.trans (exec_enable_failed hw)
    exact ⟨_, hframe.cfg, rfl⟩

/-- A command that halts a running block was INIT or ENABLE, ended by one of its own causes. -/
theorem exec_endsFatally (he : exec i s = .next t) (hh : s.halted = false) (ht : t.halted = true) :
    ∃ code, EndsFatally code s t ∧ ((i = .init ∧ (code = s.cfg.fatalDiscovery ∨ code = s.cfg.fatalIdentity)) ∨
      (i = .enable ∧ code = s.cfg.fatalConfig)) := by
  by_cases hinit : i = .init
  · subst hinit
    obtain hfatal | hfatal := exec_init_endsFatally he hh ht
    · exact ⟨_, hfatal, .inl ⟨rfl, .inl rfl⟩⟩
    · exact ⟨_, hfatal, .inl ⟨rfl, .inr rfl⟩⟩
  by_cases henable : i = .enable
  · subst henable
    exact ⟨_, exec_enable_endsFatally he hh ht, .inr ⟨rfl, rfl⟩⟩
  · exact nomatch ht.symm.trans ((exec_halted hinit henable he).trans hh)

theorem exec_responses_of_halts (he : exec i s = .next t) (hh : s.halted = false) (ht : t.halted = true) :
    t.responses = s.responses := by
  obtain ⟨hsame, -⟩ | ⟨-, hresponses⟩ := exec_answered he
  · exact nomatch ht.symm.trans (hsame.trans hh)
  · exact hresponses

/-- Of the seven ways a step answers a next state, only running a command halts a running block. -/
theorem step_halts (hst : step s = .next t) (hh : s.halted = false) (ht : t.halted = true) :
    ∃ w i, s.nextEvent = .command w ∧ decode w = .ok i ∧ exec i s.takeEvent = .next t := by
  have hstill (h : t.halted = s.halted) : False := nomatch ht.symm.trans (h.trans hh)
  obtain ⟨l, -, rfl⟩ | ⟨l, -, rfl⟩ | ⟨w, i, hw, -, hd, he⟩ | ⟨w, e, -, -, -, rfl⟩ | ⟨w, -, -, -, -, rfl⟩ | ⟨-, -, -, rfl⟩ |
    ⟨-, -, rfl⟩ := step_cases hst
  · exact (hstill rfl).elim
  · exact nomatch ht
  · exact ⟨w, i, hw, hd, he⟩
  · exact (hstill rfl).elim
  · exact (hstill (service_serviceOnly s).halted).elim
  · exact (hstill (service_serviceOnly s.takeEvent).halted).elim
  · exact (hstill rfl).elim

/-- Settles O58: the step ran a command, and that was INIT or ENABLE, ended fatally. -/
theorem onlyInitAndEnableHalt : Obligations.OnlyInitAndEnableHalt := by
  intro s t hst hh ht
  obtain ⟨w, i, hw, hd, he⟩ := step_halts hst hh ht
  have hresponses : t.responses = s.responses := exec_responses_of_halts (s := s.takeEvent) he hh ht
  obtain ⟨code, hfatal, hcause⟩ := exec_endsFatally (s := s.takeEvent) he hh ht
  obtain ⟨hcomponent, rfl, hctx⟩ := hfatal.registers
  refine ⟨hcomponent, hresponses, hctx, w, hw, ?_⟩
  obtain ⟨rfl, hcode⟩ | ⟨rfl, hcode⟩ := hcause
  · exact .inl ⟨hd, hcode⟩
  · exact .inr ⟨hd, hcode⟩

/-! ## The command that is refused -/

/-- Only INIT with the self-test built in has no next state (R135). -/
theorem exec_next (h : ¬ (i = .init ∧ s.cfg.selfTest = true)) : ∃ t, exec i s = .next t := by
  cases i with
  | init => exact ⟨_, exec_init_eq (Bool.eq_false_iff.2 fun hself => h ⟨rfl, hself⟩)⟩
  | _ => exact ⟨_, rfl⟩

theorem runWord_next (h : ¬ (decode w = .ok .init ∧ s.cfg.selfTest = true)) : ∃ t, runWord w s = .next t := by
  cases hd : decode w with
  | ok i =>
    rw [runWord_of_decode_ok hd]
    exact exec_next fun ⟨hi, hself⟩ => h ⟨hd.trans (congrArg _ hi), hself⟩
  | error e => exact ⟨_, runWord_of_decode_error hd s⟩

/-- A word that is refused is INIT's, and the self-test is built in. -/
theorem runWord_refused (h : runWord w s = .refused r) :
    r = .selfTestBuiltIn ∧ s.cfg.selfTest = true ∧ decode w = .ok .init := by
  obtain ⟨hd, hself⟩ : decode w = .ok .init ∧ s.cfg.selfTest = true := by
    by_contra hn
    obtain ⟨t, ht⟩ := runWord_next hn
    exact nomatch h.symm.trans ht
  rw [runWord_of_decode_ok hd, initWithSelfTestIsRefused s hself] at h
  cases h
  exact ⟨rfl, hself, hd⟩

/-- A step is refused only in the running of a word that it took. -/
theorem step_refused (h : step s = .refused r) : ∃ w, s.nextEvent = .command w ∧ runWord w s.takeEvent = .refused r := by
  cases hev : s.nextEvent with
  | line l => exact nomatch h.symm.trans (step_of_nextEvent_line hev)
  | reset l => exact nomatch h.symm.trans (step_of_nextEvent_reset hev)
  | command w =>
    rw [step_of_nextEvent_command hev, offerWord] at h
    split at h
    · exact ⟨w, rfl, h⟩
    · split at h
      · cases h
      · split at h <;> cases h
  | quiet =>
    rw [step_of_nextEvent_quiet hev, idleTurn] at h
    split at h
    · cases h
    · split at h <;> cases h

/-- With nothing pending a safe state takes the word that is offered. -/
theorem State.Safe.step_of_command (h : s.Safe) (hp : s.irqPending = false) (hw : s.nextEvent = .command w) :
    step s = runWord w s.takeEvent :=
  (step_of_nextEvent_command hw).trans (offerWord_of_cmdReady w (cmdReady_iff.2 ⟨h.running, h.inv.ctx, hp⟩))

/-- A safe state steps on every event but an INIT that is refused. -/
theorem State.Safe.step_next (h : s.Safe)
    (hn : ¬ (s.cfg.selfTest = true ∧ s.irqPending = false ∧ ∃ w, s.nextEvent = .command w ∧ decode w = .ok .init)) :
    ∃ t, step s = .next t := by
  cases hev : s.nextEvent with
  | line l => exact ⟨_, step_of_nextEvent_line hev⟩
  | reset l => exact ⟨_, step_of_nextEvent_reset hev⟩
  | command w =>
    cases hp : s.irqPending with
    | true => exact ⟨_, (step_of_nextEvent_command hev).trans (offerWord_of_irqPending w hp h.running)⟩
    | false =>
      rw [h.step_of_command hp hev]
      exact runWord_next fun ⟨hd, hself⟩ => hn ⟨hself, hp, w, hev, hd⟩
  | quiet =>
    rw [step_of_nextEvent_quiet hev]
    cases hp : s.irqPending with
    | true => exact ⟨_, idleTurn_of_irqPending hp h.running⟩
    | false => exact ⟨_, idleTurn_of_not_irqPending hp h.running⟩

/-- Settles O57: every event of a safe state steps but the word of a refused INIT, and a refusal comes only from such a word. -/
theorem safeBlockAlwaysSteps : Obligations.SafeBlockAlwaysSteps := by
  refine ⟨fun s hs => ⟨hs.step_next, ?_⟩, fun s r hr => ?_⟩
  · rintro ⟨hself, hp, w, hw, hd⟩
    rw [hs.step_of_command hp hw, runWord_of_decode_ok hd]
    exact initWithSelfTestIsRefused s.takeEvent hself
  · obtain ⟨w, hw, hrun⟩ := step_refused hr
    obtain ⟨hkind, hself, hd⟩ := runWord_refused hrun
    exact ⟨hkind, hself, w, hw, hd⟩

end Sys2Proof.Machine
end
